-- ==== Sys2Proof/Word.lean ====
section
/-! DEFINITION. The words of the block, the names of the sixteen buttons, and the raw inputs an environment presents: a
clock cycle of the request ports (R73), one byte clocked on the wire (R61), or a call of a static query (R71). -/

namespace Sys2Proof

/-- One byte on the wire (R61). Also the width of the transfer-state register (R23, decision D3). -/
abbrev Byte := BitVec 8

/-- A 16-bit word: the button-state register (R21) or the identity constant (R27). -/
abbrev Half := BitVec 16

/-- The integer button code of a request, two's complement (R76, decision D4). -/
abbrev Code := BitVec 32

/-- The three-byte persistence image, byte 0 in bits 7 to 0 (R68, decision D5). -/
abbrev Image := BitVec 24

/-- The sixteen buttons in the order of their codes (R21, R65, decision D20). The set is closed. -/
inductive Button
  | select | l3 | r3 | start | up | right | down | left
  | l2 | r2 | l1 | r1 | triangle | circle | cross | square
  deriving DecidableEq, Repr

/-- The input ports of the clocked binding in one clock cycle (R73). The clock itself is the step. -/
structure Ports where
  /-- `por_n`, active low: false asserts the power-on reset. -/
  porN : Bool
  /-- `req_valid`: the environment issues one request in this cycle. -/
  reqValid : Bool
  /-- `req_op[3:0]`, the operation code of R72. -/
  reqOp : BitVec 4
  /-- `req_byte[7:0]`, the input byte of TRANSFER. -/
  reqByte : Byte
  /-- `req_button[3:0]`, the button of SET_BUTTON. -/
  reqButton : BitVec 4
  /-- `req_code[31:0]`, the integer code of SET_BUTTON_CODE and the axis code of SET_AXIS. -/
  reqCode : Code
  /-- `req_pressed`, true = pressed. -/
  reqPressed : Bool
  /-- `req_axis_value[31:0]` of SET_AXIS. -/
  reqAxisValue : BitVec 32
  /-- `req_image[23:0]` of LOAD. -/
  reqImage : Image
  /-- `req_base_ok` of SAVE and LOAD: the base persistence routine succeeded (R153). -/
  reqBaseOk : Bool
  deriving DecidableEq, Repr

/-- A call of one of the five static queries, which have no request code (R71, decision D22). -/
inductive StaticQuery
  | buttonCodeByName (name : String)
  | axisCodeByName (name : String)
  | buttonNames
  | axisNames
  | vibMotorCount
  deriving DecidableEq, Repr

/-- One item the environment presents (log entry 6). -/
inductive Input
  /-- One clock cycle of the request ports (R73, R75). -/
  | cycle (p : Ports)
  /-- One byte clocked by the host bus driver, at the level of the operation `Transfer(inputByte)` (R61, R90). -/
  | wireByte (b : Byte)
  /-- One call of a static query. -/
  | query (q : StaticQuery)
  deriving DecidableEq, Repr

/-- Why the decoder gives an input no instruction. -/
inductive Reject
  /-- The request code is one of `0xA` to `0xF` (R78). -/
  | reservedRequestCode (op : BitVec 4)
  deriving DecidableEq, Repr

/-- The four groups of callers (R6). Descriptive: the block makes no check on it (R180). -/
inductive Agent
  | hostBus | inputSource | persist | config
  deriving DecidableEq, Repr

end Sys2Proof
end

