-- ==== Sys2Proof/Config.lean ====
section
/-! DEFINITION. The implementation parameters of R8: the constants wired into the block, the values the spec decided, and
the one open parameter. -/

namespace Sys2Proof.Config

/-- `ID_CONST`, the peripheral identity constant (R27). -/
def idConst : Half := 0x5A41#16

/-- `CMD_SELECT`, the peripheral-select command byte (R62). -/
def cmdSelect : Byte := 0x01#8

/-- `CMD_POLL`, the poll/read command byte (R62). -/
def cmdPoll : Byte := 0x42#8

/-- `IDLE_BYTE`, the idle-line default response (R64). -/
def idleByte : Byte := 0xFF#8

/-- The transfer-state code of Idle (R66, decision D2; log entry 2). -/
def tsIdle : Byte := 0#8

/-- The transfer-state code of IDMSB (R66, decision D2; log entry 2). -/
def tsIdMsb : Byte := 1#8

/-- The transfer-state code of ButtonsLSB (R66, decision D2; log entry 2). -/
def tsButtonsLsb : Byte := 2#8

/-- The transfer-state code of ButtonsMSB (R66, decision D2; log entry 2). -/
def tsButtonsMsb : Byte := 3#8

/-- `N_STATES`, the number of legal transfer states: the codes below it are legal, the others corrupt (R23, R26). -/
def nStates : Nat := 4

/-- `BTN_RESET`, the value of `btn` after power-on (R34, decision D1; log entry 1). -/
def btnReset : Half := 0xFFFF#16

/-- `VIB_MOTOR_COUNT` (R149). -/
def vibMotorCount : Nat := 0

/-- `TYPE_DIGITAL`, the open parameter: the spec gives no number (R82, decision D12), so it has no body and no claim can
depend on its value (log entry 3). -/
opaque typeDigital : Nat

end Sys2Proof.Config
end

