-- ==== Sys2Proof/Syntax.lean ====
section
/-! DEFINITION. The instructions: one constructor per row of the opcode table, ten request operations (R71), the seven rows
of the transfer table (R69) and the five static queries (R71). -/

namespace Sys2Proof

/-- An operation of the block, or a row of its transfer table. -/
inductive Instr
  /-- TRANSFER (R90). -/
  | transfer (b : Byte)
  /-- SET_BUTTON (R120). -/
  | setButton (button : Button) (pressed : Bool)
  /-- SET_BUTTON_CODE (R121). -/
  | setButtonCode (code : Code) (pressed : Bool)
  /-- SET_AXIS (R123). -/
  | setAxis (code : Code) (value : BitVec 32)
  /-- GET_BITS (R122). -/
  | getBits
  /-- RESET (R140). -/
  | reset
  /-- RESET_TRANSFER (R141). -/
  | resetTransfer
  /-- SAVE (R142). -/
  | save (baseOk : Bool)
  /-- LOAD (R143). -/
  | load (baseOk : Bool) (image : Image)
  /-- GET_TYPE (R144). -/
  | getType
  /-- XFER.POLL (R91): the byte is `0x42`. -/
  | xferPoll
  /-- XFER.SELECT (R92): the byte is `0x01`. -/
  | xferSelect
  /-- XFER.OTHER (R93): any other byte in Idle. -/
  | xferOther (b : Byte)
  /-- XFER.IDMSB (R94). -/
  | xferIdMsb (b : Byte)
  /-- XFER.BTNLSB (R95). -/
  | xferBtnLsb (b : Byte)
  /-- XFER.BTNMSB (R96). -/
  | xferBtnMsb (b : Byte)
  /-- XFER.ILLEGAL (R97). -/
  | xferIllegal (b : Byte)
  /-- GET_BUTTON_CODE_BY_NAME (R145). -/
  | getButtonCodeByName (name : String)
  /-- GET_AXIS_CODE_BY_NAME (R146). -/
  | getAxisCodeByName (name : String)
  /-- GET_BUTTON_NAMES (R147). -/
  | getButtonNames
  /-- GET_AXIS_NAMES (R148). -/
  | getAxisNames
  /-- GET_VIB_MOTOR_COUNT (R149). -/
  | getVibMotorCount
  deriving DecidableEq, Repr

end Sys2Proof
end

