-- ==== Sys2Proof/WellFormed.lean ====
section
/-! DEFINITION. Which instruction terms an encoding can carry. Every operand type holds exactly the values of its port (R76),
so the one thing to check is the operand of XFER.OTHER: the two bytes Idle recognises belong to other rows (R93, R99). -/

namespace Sys2Proof

/-- The byte of XFER.OTHER is neither the poll command nor the select byte. -/
def Instr.wellFormed (i : Instr) : Bool :=
  match i with
  | .xferOther b => b != Config.cmdPoll && b != Config.cmdSelect
  | .transfer _ | .setButton _ _ | .setButtonCode _ _ | .setAxis _ _ | .getBits | .reset | .resetTransfer | .save _
  | .load _ _ | .getType | .xferPoll | .xferSelect | .xferIdMsb _ | .xferBtnLsb _ | .xferBtnMsb _ | .xferIllegal _
  | .getButtonCodeByName _ | .getAxisCodeByName _ | .getButtonNames | .getAxisNames | .getVibMotorCount => true

end Sys2Proof
end

