-- ==== Sys2Proof/Decode.lean ====
section
/-! DEFINITION. The two decoders of R60, the request layer (R72, R73, R76) and the wire layer (R69), and the encoder that
goes the other way. Decoding is total: it names what it rejects. -/

namespace Sys2Proof

/-! ### Button codes (R65) -/

/-- The buttons in ascending code order (R65). -/
def buttonList : List Button :=
  [.select, .l3, .r3, .start, .up, .right, .down, .left, .l2, .r2, .l1, .r1, .triangle, .circle, .cross, .square]

/-- A button's integer code, its ordinal and its bit index in `btn` are one number (R65). -/
def Button.code (b : Button) : BitVec 4 :=
  match b with
  | .select => 0#4 | .l3 => 1#4 | .r3 => 2#4 | .start => 3#4 | .up => 4#4 | .right => 5#4 | .down => 6#4 | .left => 7#4
  | .l2 => 8#4 | .r2 => 9#4 | .l1 => 10#4 | .r1 => 11#4 | .triangle => 12#4 | .circle => 13#4 | .cross => 14#4
  | .square => 15#4

/-- The button a 4-bit code names: every code is a button (R76). -/
def Button.ofCode (c : BitVec 4) : Button := buttonList.getD c.toNat .select

/-! ### The request layer -/

/-- The operation a request cycle names, with its operands read from their ports (R72, R76). Ports an operation does not use
are ignored (R73). -/
def decodeRequest (p : Ports) : Except Reject Instr :=
  match p.reqOp.toNat with
  | 0 => .ok (.transfer p.reqByte)
  | 1 => .ok (.setButton (Button.ofCode p.reqButton) p.reqPressed)
  | 2 => .ok (.setButtonCode p.reqCode p.reqPressed)
  | 3 => .ok (.setAxis p.reqCode p.reqAxisValue)
  | 4 => .ok .getBits
  | 5 => .ok .reset
  | 6 => .ok .resetTransfer
  | 7 => .ok (.save p.reqBaseOk)
  | 8 => .ok (.load p.reqBaseOk p.reqImage)
  | 9 => .ok .getType
  | _ => .error (.reservedRequestCode p.reqOp)

/-! ### The wire layer -/

/-- The row of the transfer table that the pair of the transfer state and the byte selects (R69): by `ts` first, then in
Idle by the byte. -/
def decodeTransfer (ts b : Byte) : Instr :=
  if ts = Config.tsIdle then
    if b = Config.cmdPoll then .xferPoll else if b = Config.cmdSelect then .xferSelect else .xferOther b
  else if ts = Config.tsIdMsb then .xferIdMsb b
  else if ts = Config.tsButtonsLsb then .xferBtnLsb b
  else if ts = Config.tsButtonsMsb then .xferBtnMsb b
  else .xferIllegal b

/-- The instruction of a static-query call (R71). -/
def decodeQuery (q : StaticQuery) : Instr :=
  match q with
  | .buttonCodeByName n => .getButtonCodeByName n
  | .axisCodeByName n => .getAxisCodeByName n
  | .buttonNames => .getButtonNames
  | .axisNames => .getAxisNames
  | .vibMotorCount => .getVibMotorCount

/-- The instruction an input stands for while the transfer state is `ts`. Whether a cycle holds a request at all is not
asked here: see `Input.resets` and `Input.idle`. -/
def decode (ts : Byte) (inp : Input) : Except Reject Instr :=
  match inp with
  | .cycle p => decodeRequest p
  | .wireByte b => .ok (decodeTransfer ts b)
  | .query q => .ok (decodeQuery q)

/-- The cycle asserts the power-on reset, which overrides any request of the same cycle (R190). -/
def Input.resets (inp : Input) : Bool :=
  match inp with
  | .cycle p => !p.porN
  | .wireByte _ => false
  | .query _ => false

/-- The cycle issues no request (R75). -/
def Input.idle (inp : Input) : Bool :=
  match inp with
  | .cycle p => !p.reqValid
  | .wireByte _ => false
  | .query _ => false

/-! ### The encoder -/

/-- A cycle with a request of code `op` and every operand port low. -/
def requestPorts (op : BitVec 4) : Ports where
  porN := true
  reqValid := true
  reqOp := op
  reqByte := 0#8
  reqButton := 0#4
  reqCode := 0#32
  reqPressed := false
  reqAxisValue := 0#32
  reqImage := 0#24
  reqBaseOk := false

/-- How an instruction reaches the block: a request cycle (format REQ, R72), a byte (format CMD8, R69), or a call of a
static query (format CONST). -/
def encode (i : Instr) : Input :=
  match i with
  | .transfer b => .cycle { requestPorts 0x0#4 with reqByte := b }
  | .setButton b p => .cycle { requestPorts 0x1#4 with reqButton := b.code, reqPressed := p }
  | .setButtonCode c p => .cycle { requestPorts 0x2#4 with reqCode := c, reqPressed := p }
  | .setAxis c v => .cycle { requestPorts 0x3#4 with reqCode := c, reqAxisValue := v }
  | .getBits => .cycle (requestPorts 0x4#4)
  | .reset => .cycle (requestPorts 0x5#4)
  | .resetTransfer => .cycle (requestPorts 0x6#4)
  | .save ok => .cycle { requestPorts 0x7#4 with reqBaseOk := ok }
  | .load ok img => .cycle { requestPorts 0x8#4 with reqBaseOk := ok, reqImage := img }
  | .getType => .cycle (requestPorts 0x9#4)
  | .xferPoll => .wireByte Config.cmdPoll
  | .xferSelect => .wireByte Config.cmdSelect
  | .xferOther b => .wireByte b
  | .xferIdMsb b => .wireByte b
  | .xferBtnLsb b => .wireByte b
  | .xferBtnMsb b => .wireByte b
  | .xferIllegal b => .wireByte b
  | .getButtonCodeByName n => .query (.buttonCodeByName n)
  | .getAxisCodeByName n => .query (.axisCodeByName n)
  | .getButtonNames => .query .buttonNames
  | .getAxisNames => .query .axisNames
  | .getVibMotorCount => .query .vibMotorCount

/-- The condition on the transfer state under which a row of the transfer table is selected (column `ts` of R69). The
operations and the static queries are available in every state (R180). -/
def Instr.selectedIn (i : Instr) (ts : Byte) : Bool :=
  match i with
  | .xferPoll | .xferSelect | .xferOther _ => ts == Config.tsIdle
  | .xferIdMsb _ => ts == Config.tsIdMsb
  | .xferBtnLsb _ => ts == Config.tsButtonsLsb
  | .xferBtnMsb _ => ts == Config.tsButtonsMsb
  | .xferIllegal _ => decide (Config.nStates ≤ ts.toNat)
  | .transfer _ | .setButton _ _ | .setButtonCode _ _ | .setAxis _ _ | .getBits | .reset | .resetTransfer | .save _
  | .load _ _ | .getType | .getButtonCodeByName _ | .getAxisCodeByName _ | .getButtonNames | .getAxisNames
  | .getVibMotorCount => true

/-! ### Words numbered as the opcode table numbers them -/

/-- The input a table word of `nbits` bits stands for. A REQ row has four bits, so its byte has a high half of zero and is
the code on `req_op` with every operand port low. Any other byte is a CMD8 byte on the wire. A word wider than a byte is no
row of the table (log entry 11). -/
def Input.ofTableWord (nbits w : Nat) : Option Input :=
  if 256 ≤ w then none
  else if nbits ≤ 4 ∨ w < 16 then some (.cycle (requestPorts (BitVec.ofNat 4 w)))
  else some (.wireByte (BitVec.ofNat 8 w))

/-- The instruction the decoder reads from a table word. A CMD8 byte is read in Idle, the state after reset (log entry 11). -/
def decodeTableWord (nbits w : Nat) : Option Instr :=
  match Input.ofTableWord nbits w with
  | none => none
  | some inp => (decode Config.tsIdle inp).toOption

end Sys2Proof
end

