-- ==== Sys2Proof/Machine/State.lean ====
section
/-! DEFINITION. The state of one instance: the two registers of R20, the kept fault of R175, and the two fields by which a
step meets its environment, the inputs still to come and the response just given. -/

namespace Sys2Proof.Machine

/-- Why an operation stops. -/
inductive Fault
  /-- A transfer while `ts` holds the value `ts` outside 0..3 (R97, R170). Raised by TRANSFER, through its row XFER.ILLEGAL.
  It is the spec's own fault outcome (R175), and safe: nothing is claimed of the block after it but `halted`. -/
  | invariantViolation (ts : Byte)
  deriving DecidableEq, Repr

/-- Why a step has no meaning. -/
inductive Refusal
  /-- The instruction of that mnemonic has no meaning yet. Raised by no arm of this model. Safe. -/
  | notModelled (mnemonic : String)
  /-- A request with a reserved code, `0xA` to `0xF` (R78, U2). Raised by the step, before any instruction. Safe. -/
  | reservedRequestCode (op : BitVec 4)
  deriving DecidableEq, Repr

/-- What an operation answers (R63, R74, and the results of the static queries, R145 to R149). An output an operation does
not produce is not there (decision D17; log entry 7). -/
inductive Response
  /-- No output carries a value. -/
  | absent
  /-- TRANSFER: the response byte and the continuation flag (R63). -/
  | transfer (byte : Byte) (cont : Bool)
  /-- GET_BITS: the logical view (R122). -/
  | bits (view : Half)
  /-- SAVE, base step succeeded: ok, and the image (R142). -/
  | saved (image : Image)
  /-- SAVE, base step failed: not ok, and no image (R142, U4). -/
  | saveFailed
  /-- LOAD: ok or not (R143). -/
  | loadResult (ok : Bool)
  /-- GET_TYPE: the type discriminator (R144). -/
  | deviceType (t : Nat)
  /-- A lookup by name: a code, or not found (R145, R146). -/
  | lookup (code : Option Nat)
  /-- A list of (display name, code) pairs (R147, R148). -/
  | names (table : List (String × Nat))
  /-- The vibration motor count (R149). -/
  | motorCount (n : Nat)
  deriving DecidableEq, Repr

/-- The state of the machine. -/
structure State where
  /-- The button-state register, active-low: bit `i` is 0 when the button of code `i` is pressed (R21). -/
  btn : Half
  /-- The transfer-state register (R23). -/
  ts : Byte
  /-- The fault that was raised, kept until power-on reset; the output `halted` is 1 while there is one (R74, R175). -/
  fault : Option Fault
  /-- What the environment is going to present, oldest first (R49; the model's own field, log entry 6). -/
  inputs : List Input
  /-- The response of the step just performed (the model's own field: no operation reads it, R30; log entry 7). -/
  rsp : Response
  deriving DecidableEq, Repr

/-- The state the power-on reset leaves, for any value `b` of BTN_RESET (R34, R190). -/
def State.powerOn (b : Half) (inputs : List Input) : State where
  btn := b
  ts := Config.tsIdle
  fault := none
  inputs := inputs
  rsp := .absent

/-- The machine right after power-on reset, nothing presented to it yet (R190). -/
def State.reset : State := State.powerOn Config.btnReset []

end Sys2Proof.Machine
end

