-- ==== Sys2Proof/Machine/Operands.lean ====
section
/-! DEFINITION. The value operations of R10 and R126, the operand forms of R76, the image layout of R68, and the byte
serializer of R98. -/

namespace Sys2Proof.Machine

/-- `lo8`: the low byte of a 16-bit word, by truncation (R10). -/
def lo8 (w : Half) : Byte := w.setWidth 8

/-- `hi8`: the high byte of a 16-bit word, a shift right by 8 and then truncation (R10). -/
def hi8 (w : Half) : Byte := (w >>> 8).setWidth 8

/-- `not16`: bitwise complement (R10). -/
def not16 (w : Half) : Half := ~~~w

/-- `1 << i`, the mask of the button of code `i` (R65, R126). -/
def bitMask (i : Nat) : Half := 1#16 <<< i

/-- `btn[i] <- not pressed` on a 16-bit word: clear the bit when pressed, set it when released (R120). -/
def writeButtonBit (w : Half) (i : Nat) (pressed : Bool) : Half :=
  if pressed then w &&& not16 (bitMask i) else w ||| bitMask i

/-- The bit index an integer code selects: the whole signed value is tested, never truncated first (R76, R121). -/
def codeIndex? (code : Code) : Option Nat :=
  if 0 ≤ code.toInt ∧ code.toInt ≤ 15 then some code.toInt.toNat else none

/-- `{ts[7:0], btn[15:0]}` (R68). -/
def packImage (ts : Byte) (btn : Half) : Image := ts ++ btn

/-- `image[15:0]`, the mask an image restores (R68, R143). -/
def imageBtn (img : Image) : Half := img.extractLsb' 0 16

/-- `image[23:16]`, the transfer state an image restores (R68, R143). -/
def imageTs (img : Image) : Byte := img.extractLsb' 16 8

/-- Byte `k` of an image, the first byte in the lowest bits (R68). -/
def imageByte (img : Image) (k : Nat) : Byte := img.extractLsb' (8 * k) 8

/-- The byte serializer as the combinational datapath of R98: the idle byte, or one half of the word steered by `ts`. The
rows of the transfer table say the same row by row (R91 to R96). -/
def serializer (ts b : Byte) (btn : Half) : Byte :=
  let word := if (ts = Config.tsIdle ∧ b = Config.cmdPoll) ∨ ts = Config.tsIdMsb then Config.idConst else btn
  let low := ts = Config.tsIdle ∨ ts = Config.tsButtonsLsb
  if ts = Config.tsIdle ∧ b ≠ Config.cmdPoll then Config.idleByte else if low then lo8 word else hi8 word

end Sys2Proof.Machine
end

