-- ==== Sys2Proof/Machine/Flags.lean ====
section
/-! DEFINITION. The block has no flag register (R30). What stands in its place are outputs: the continuation flag of a
transfer, and the response ports of R74, each carrying a value only where the operation produces it. -/

namespace Sys2Proof.Machine

/-- The continuation flag of a transfer in a legal state, a function of `(ts, in)` alone (R30, R69). -/
def continueFlag (ts b : Byte) : Bool :=
  if ts = Config.tsIdle then b = Config.cmdPoll ∨ b = Config.cmdSelect
  else ts = Config.tsIdMsb ∨ ts = Config.tsButtonsLsb

/-- Port `rsp_byte` (R74). -/
def Response.rspByte (r : Response) : Option Byte :=
  match r with
  | .transfer b _ => some b
  | .absent | .bits _ | .saved _ | .saveFailed | .loadResult _ | .deviceType _ | .lookup _ | .names _ | .motorCount _ => none

/-- Port `rsp_continue` (R74). -/
def Response.rspContinue (r : Response) : Option Bool :=
  match r with
  | .transfer _ c => some c
  | .absent | .bits _ | .saved _ | .saveFailed | .loadResult _ | .deviceType _ | .lookup _ | .names _ | .motorCount _ => none

/-- Port `rsp_bits` (R74). -/
def Response.rspBits (r : Response) : Option Half :=
  match r with
  | .bits v => some v
  | .absent | .transfer _ _ | .saved _ | .saveFailed | .loadResult _ | .deviceType _ | .lookup _ | .names _
  | .motorCount _ => none

/-- Port `rsp_image` (R74): driven by a SAVE whose base step succeeded, and by nothing else. -/
def Response.rspImage (r : Response) : Option Image :=
  match r with
  | .saved img => some img
  | .absent | .transfer _ _ | .bits _ | .saveFailed | .loadResult _ | .deviceType _ | .lookup _ | .names _
  | .motorCount _ => none

/-- Port `rsp_ok` (R74): `req_base_ok` of the SAVE or LOAD. -/
def Response.rspOk (r : Response) : Option Bool :=
  match r with
  | .saved _ => some true
  | .saveFailed => some false
  | .loadResult ok => some ok
  | .absent | .transfer _ _ | .bits _ | .deviceType _ | .lookup _ | .names _ | .motorCount _ => none

/-- Port `rsp_type` (R74). -/
def Response.rspType (r : Response) : Option Nat :=
  match r with
  | .deviceType t => some t
  | .absent | .transfer _ _ | .bits _ | .saved _ | .saveFailed | .loadResult _ | .lookup _ | .names _ | .motorCount _ => none

/-- Port `halted` (R74, R175). -/
def State.halted (s : State) : Bool := s.fault.isSome

end Sys2Proof.Machine
end

