-- ==== Sys2Proof/Machine/Ops.lean ====
section
/-! DEFINITION. The named operations over the state that the meanings share. The block has no memory (R40), so these are the
register writes, the response, the raising and keeping of the one fault, and the power-on reset, which is the only way out of
it. -/

namespace Sys2Proof.Machine

/-- The outcome of an operation. -/
abbrev Result := Host.Outcome State Fault Refusal

/-- `btn <- v` (R10). -/
def State.setBtn (s : State) (v : Half) : State := { s with btn := v }

/-- `ts <- v` (R10). -/
def State.setTs (s : State) (v : Byte) : State := { s with ts := v }

/-- The response of the operation being performed (R10). -/
def State.respond (s : State) (r : Response) : State := { s with rsp := r }

/-- The environment's remaining inputs. -/
def State.setInputs (s : State) (rest : List Input) : State := { s with inputs := rest }

/-- `btn[i] <- not pressed`, the other fifteen bits unchanged (R120). -/
def State.writeButton (s : State) (i : Nat) (pressed : Bool) : State := s.setBtn (writeButtonBit s.btn i pressed)

/-- An operation that completes and answers `r`. -/
def complete (s : State) (r : Response) : Result := .next (s.respond r)

/-- One row of the transfer table: the response byte, the next transfer state, the continuation flag (R69). -/
def transferRow (s : State) (byte : Byte) (next : Byte) (cont : Bool) : Result :=
  complete (s.setTs next) (.transfer byte cont)

/-- `raise InvariantViolation(ts)`: no response, and neither register is written (R97, R175, R176). -/
def raiseInvariantViolation (s : State) : Result := .fault (.invariantViolation s.ts)

/-- What a raised fault does in the clocked binding: `halted` goes to 1, and neither register is written and no response is
valid in that cycle (R175, R176). -/
def State.halt (s : State) (f : Fault) : State := { s with fault := some f, rsp := .absent }

/-- The power-on reset, the only way out of `halted` (R178, R190). What the environment presents next is its own matter. -/
def State.powerOnReset (s : State) : State := State.powerOn Config.btnReset s.inputs

/-- A cycle in which no operation is performed: nothing changes, and no response is valid (R75). -/
def State.noRequest (s : State) : State := s.respond .absent

end Sys2Proof.Machine
end

