-- ==== Sys2Proof/Machine/Buttons.lean ====
section
/-! DEFINITION. The button-state operations (41_button_state.md). -/

namespace Sys2Proof.Machine

/-- SET_BUTTON (R120). -/
def execSetButton (button : Button) (pressed : Bool) (s : State) : Result :=
  complete (s.writeButton button.code.toNat pressed) .absent

/-- SET_BUTTON_CODE (R121): outside 0..15 nothing is written and nothing is reported. -/
def execSetButtonCode (code : Code) (pressed : Bool) (s : State) : Result :=
  match codeIndex? code with
  | some i => complete (s.writeButton i pressed) .absent
  | none => complete s .absent

/-- SET_AXIS (R123): accepted and ignored, the operands are not read. -/
def execSetAxis (_code : Code) (_value : BitVec 32) (s : State) : Result := complete s .absent

/-- GET_BITS (R122): the logical view, 1 = pressed. -/
def execGetBits (s : State) : Result := complete s (.bits (not16 s.btn))

end Sys2Proof.Machine
end

