-- ==== Sys2Proof/Machine/Control.lean ====
section
/-! DEFINITION. The two resets of the transfer machine, the two directions of persistence, and the type query
(42_control_and_persistence.md). -/

namespace Sys2Proof.Machine

/-- `ts <- Idle`, the effect RESET and RESET_TRANSFER share on this block (R152). -/
def transferReset (s : State) : Result := complete (s.setTs Config.tsIdle) .absent

/-- RESET (R140). -/
def execReset (s : State) : Result := transferReset s

/-- RESET_TRANSFER (R141). -/
def execResetTransfer (s : State) : Result := transferReset s

/-- SAVE (R142): the base step is asked first; a corrupt `ts` is written out as it is. -/
def execSave (baseOk : Bool) (s : State) : Result :=
  if baseOk then complete s (.saved (packImage s.ts s.btn)) else complete s .saveFailed

/-- LOAD (R143): the base step is asked first; the restored values are not checked. -/
def execLoad (baseOk : Bool) (image : Image) (s : State) : Result :=
  if baseOk then complete ((s.setBtn (imageBtn image)).setTs (imageTs image)) (.loadResult true)
  else complete s (.loadResult false)

/-- GET_TYPE (R144). -/
def execGetType (s : State) : Result := complete s (.deviceType Config.typeDigital)

end Sys2Proof.Machine
end

