-- ==== Sys2Proof/Machine/Queries.lean ====
section
/-! DEFINITION. The five static queries (R145 to R149): pure functions over the constant tables of R81. They touch no
register. -/

namespace Sys2Proof.Machine

/-- The literal name of a button, spelled exactly (R81). -/
def buttonName (b : Button) : String :=
  match b with
  | .select => "Select" | .l3 => "L3" | .r3 => "R3" | .start => "Start"
  | .up => "Up" | .right => "Right" | .down => "Down" | .left => "Left"
  | .l2 => "L2" | .r2 => "R2" | .l1 => "L1" | .r1 => "R1"
  | .triangle => "Triangle" | .circle => "Circle" | .cross => "Cross" | .square => "Square"

/-- The button-name table: the pairs (display name, code) in ascending code order, the display name equal to the literal
name (R81, decision D13; log entry 10). -/
def buttonNameTable : List (String × Nat) := buttonList.map fun b => (buttonName b, b.code.toNat)

/-- The axis-name table is empty (R81). -/
def axisNameTable : List (String × Nat) := []

/-- Case-sensitive exact-string lookup (R81, R145). -/
def lookupName (table : List (String × Nat)) (name : String) : Option Nat := table.lookup name

/-- GET_BUTTON_CODE_BY_NAME (R145). -/
def execGetButtonCodeByName (name : String) (s : State) : Result :=
  complete s (.lookup (lookupName buttonNameTable name))

/-- GET_AXIS_CODE_BY_NAME (R146): no axes exist, so every name is not found. -/
def execGetAxisCodeByName (name : String) (s : State) : Result :=
  complete s (.lookup (lookupName axisNameTable name))

/-- GET_BUTTON_NAMES (R147). -/
def execGetButtonNames (s : State) : Result := complete s (.names buttonNameTable)

/-- GET_AXIS_NAMES (R148). -/
def execGetAxisNames (s : State) : Result := complete s (.names axisNameTable)

/-- GET_VIB_MOTOR_COUNT (R149). -/
def execGetVibMotorCount (s : State) : Result := complete s (.motorCount Config.vibMotorCount)

end Sys2Proof.Machine
end

