-- ==== Sys2Proof/Machine/Transfer.lean ====
section
/-! DEFINITION. TRANSFER and the seven rows of its table (40_transfer.md). A row's meaning is the row's pseudocode; the
condition that selects the row is tested once, by TRANSFER itself and by `decodeTransfer` (R69, R90; log entry 13). -/

namespace Sys2Proof.Machine

/-- XFER.POLL (R91). -/
def execXferPoll (s : State) : Result := transferRow s (lo8 Config.idConst) Config.tsIdMsb true

/-- XFER.SELECT (R92). -/
def execXferSelect (s : State) : Result := transferRow s Config.idleByte Config.tsIdle true

/-- XFER.OTHER (R93). -/
def execXferOther (_b : Byte) (s : State) : Result := transferRow s Config.idleByte Config.tsIdle false

/-- XFER.IDMSB (R94): the byte is ignored. -/
def execXferIdMsb (_b : Byte) (s : State) : Result := transferRow s (hi8 Config.idConst) Config.tsButtonsLsb true

/-- XFER.BTNLSB (R95): the byte is ignored, and `btn` is read live (R103). -/
def execXferBtnLsb (_b : Byte) (s : State) : Result := transferRow s (lo8 s.btn) Config.tsButtonsMsb true

/-- XFER.BTNMSB (R96): the byte is ignored, and `btn` is read live (R103). -/
def execXferBtnMsb (_b : Byte) (s : State) : Result := transferRow s (hi8 s.btn) Config.tsIdle false

/-- XFER.ILLEGAL (R97): the byte is ignored, and the fault is raised. -/
def execXferIllegal (_b : Byte) (s : State) : Result := raiseInvariantViolation s

/-- TRANSFER (R90): the row is selected by `ts` first, then, in Idle only, by the byte. -/
def execTransfer (b : Byte) (s : State) : Result :=
  if s.ts = Config.tsIdle then
    if b = Config.cmdPoll then execXferPoll s
    else if b = Config.cmdSelect then execXferSelect s
    else execXferOther b s
  else if s.ts = Config.tsIdMsb then execXferIdMsb b s
  else if s.ts = Config.tsButtonsLsb then execXferBtnLsb b s
  else if s.ts = Config.tsButtonsMsb then execXferBtnMsb b s
  else execXferIllegal b s

end Sys2Proof.Machine
end

