-- ==== Sys2Proof/Machine/Dispatch.lean ====
section
/-! DEFINITION. The operation-level step function of R5 and R49: one operation, applied whole to the state. Every row of the
opcode table has its meaning. -/

namespace Sys2Proof.Machine

def exec (i : Instr) (s : State) : Host.Outcome State Fault Refusal :=
  match i with
  -- the ten request operations
  | .transfer b => Sys2Proof.Machine.execTransfer b s
  | .setButton button pressed => Sys2Proof.Machine.execSetButton button pressed s
  | .setButtonCode code pressed => Sys2Proof.Machine.execSetButtonCode code pressed s
  | .setAxis code value => Sys2Proof.Machine.execSetAxis code value s
  | .getBits => Sys2Proof.Machine.execGetBits s
  | .reset => Sys2Proof.Machine.execReset s
  | .resetTransfer => Sys2Proof.Machine.execResetTransfer s
  | .save baseOk => Sys2Proof.Machine.execSave baseOk s
  | .load baseOk image => Sys2Proof.Machine.execLoad baseOk image s
  | .getType => Sys2Proof.Machine.execGetType s
  -- the seven rows of the transfer table
  | .xferPoll => Sys2Proof.Machine.execXferPoll s
  | .xferSelect => Sys2Proof.Machine.execXferSelect s
  | .xferOther b => Sys2Proof.Machine.execXferOther b s
  | .xferIdMsb b => Sys2Proof.Machine.execXferIdMsb b s
  | .xferBtnLsb b => Sys2Proof.Machine.execXferBtnLsb b s
  | .xferBtnMsb b => Sys2Proof.Machine.execXferBtnMsb b s
  | .xferIllegal b => Sys2Proof.Machine.execXferIllegal b s
  -- the five static queries
  | .getButtonCodeByName name => Sys2Proof.Machine.execGetButtonCodeByName name s
  | .getAxisCodeByName name => Sys2Proof.Machine.execGetAxisCodeByName name s
  | .getButtonNames => Sys2Proof.Machine.execGetButtonNames s
  | .getAxisNames => Sys2Proof.Machine.execGetAxisNames s
  | .getVibMotorCount => Sys2Proof.Machine.execGetVibMotorCount s

end Sys2Proof.Machine
end

