-- ==== Sys2Proof/Machine/Cycle.lean ====
section
/-! DEFINITION. The clocked binding of the block (R73 to R75, R175, R190): what one step does with the oldest input, and where
the host places a table word. -/

namespace Sys2Proof.Machine

/-- The fault outcome of an operation, as the clocked binding shows it: `halted` goes to 1 and stays there (R175). The fault
is precise, so the state is that before the operation (R176). -/
def latchFault (before : State) (r : Result) : Result :=
  match r with
  | .next s => .next s
  | .fault f => .next (before.halt f)
  | .refused e => .refused e

/-- The refusal of a rejected input (R78). -/
def refuse (e : Reject) : Result :=
  match e with
  | .reservedRequestCode op => .refused (.reservedRequestCode op)

/-- One input, already taken off the list. The power-on reset overrides everything (R190). While the block is halted, and in a
cycle without a request, nothing is performed (R75, R175). Otherwise exactly the one operation the input names is performed
(R75); a reserved code is refused (R78). -/
def performInput (inp : Input) (s : State) : Result :=
  if inp.resets then .next s.powerOnReset
  else if s.halted || inp.idle then .next s.noRequest
  else
    match decode s.ts inp with
    | .error e => refuse e
    | .ok i => latchFault s (exec i s)

/-- One step: the oldest input is taken and performed; when the environment presents nothing, nothing changes (R5, R49). -/
def takeInput (s : State) : Result :=
  match s.inputs with
  | [] => .next s.noRequest
  | inp :: rest => performInput inp (s.setInputs rest)

/-- What the next step needs so that it performs exactly `inp`: the input stands first, and the block is not halted. For a
byte on the wire the transfer state is Idle, where `decodeTableWord` reads it (log entry 11). -/
def State.withInput (s : State) (inp : Input) : State :=
  match inp with
  | .cycle _ => { s with inputs := inp :: s.inputs, fault := none }
  | .wireByte _ => { s with inputs := inp :: s.inputs, fault := none, ts := Config.tsIdle }
  | .query _ => { s with inputs := inp :: s.inputs, fault := none }

/-- A table word placed where the next step takes its input from (log entry 11). A word that is no row's places nothing. -/
def placeTableWord (s : State) (nbits w : Nat) : State :=
  match Input.ofTableWord nbits w with
  | none => s
  | some inp => s.withInput inp

end Sys2Proof.Machine
end

