-- ==== Sys2Proof/Machine/Step.lean ====
section
/-! DEFINITION. The step of the machine: one cycle of the clocked binding, or one call at the operation level. -/

namespace Sys2Proof.Machine

/-- One step (R5, R75). -/
def step (s : State) : Host.Outcome State Fault Refusal := takeInput s

/-- `s` with a table word placed so that the very next step performs it (log entry 11). -/
def State.withFetchWord (s : State) (nbits w : Nat) : State := placeTableWord s nbits w

end Sys2Proof.Machine
end

