-- ==== Sys2Proof/Machine/Run.lean ====
section
/-! DEFINITION. Runs at the operation level (R49, R204): a finite sequence of operations applied one after another, the
responses it gives, the pseudo-operations of R80, and the callers of R6. -/

namespace Sys2Proof.Machine

/-- The state after a sequence of operations, or the first stop (R49, R204). -/
def runOps (ops : List Instr) (s : State) : Result :=
  match ops with
  | [] => .next s
  | i :: rest =>
    match exec i s with
    | .next t => runOps rest t
    | .fault f => .fault f
    | .refused e => .refused e

/-- The responses of a sequence of operations, in order, up to the first stop. -/
def responses (ops : List Instr) (s : State) : List Response :=
  match ops with
  | [] => []
  | i :: rest =>
    match exec i s with
    | .next t => t.rsp :: responses rest t
    | .fault _ => []
    | .refused _ => []

/-- The continuation flags a sequence of operations gives, in order: the outputs of its transfers (R63, R105). -/
def continueTrace (ops : List Instr) (s : State) : List Bool := (responses ops s).filterMap Response.rspContinue

/-- `PRESS b` (R80). -/
def press (b : Button) : List Instr := [.setButton b true]

/-- `RELEASE b` (R80). -/
def release (b : Button) : List Instr := [.setButton b false]

/-- `POLL_NOSEL` with any filler bytes (R80, R100). -/
def pollNoSel (x y z : Byte) : List Instr := [.transfer Config.cmdPoll, .transfer x, .transfer y, .transfer z]

/-- `POLL` with any filler bytes (R80, R100). -/
def poll (x y z : Byte) : List Instr := .transfer Config.cmdSelect :: pollNoSel x y z

/-- Which agent issues an operation (R6). A row of the transfer table belongs to the TRANSFER that selects it. -/
def agentOf (i : Instr) : Agent :=
  match i with
  | .transfer _ | .reset | .resetTransfer | .xferPoll | .xferSelect | .xferOther _ | .xferIdMsb _ | .xferBtnLsb _
  | .xferBtnMsb _ | .xferIllegal _ => .hostBus
  | .setButton _ _ | .setButtonCode _ _ | .setAxis _ _ | .getBits => .inputSource
  | .save _ | .load _ _ => .persist
  | .getType | .getButtonCodeByName _ | .getAxisCodeByName _ | .getButtonNames | .getAxisNames | .getVibMotorCount => .config

end Sys2Proof.Machine
end

