-- ==== Sys2Proof/Safety.lean ====
section
/-! DEFINITION. What counts as a safe run (R33, R175, R204): no fault raised, the transfer state legal, and an environment that
keeps its duties, that is, it issues no reserved code (R78) and loads no image with a corrupt third byte (R26, R200). -/

namespace Sys2Proof.Machine

/-- The state after `k` steps, or the first stop (R49). -/
def runSteps (k : Nat) (s : State) : Result :=
  match k with
  | 0 => .next s
  | n + 1 =>
    match step s with
    | .next t => runSteps n t
    | .fault f => .fault f
    | .refused e => .refused e

/-- The transfer state is one of the four legal ones (R23). -/
def State.Legal (s : State) : Prop := s.ts.toNat < Config.nStates

/-- The transfer state is corrupt (R26). -/
def State.Corrupt (s : State) : Prop := Config.nStates ≤ s.ts.toNat

/-- No fault has been raised and the next transfer cannot raise one (R26, R204). -/
def State.Healthy (s : State) : Prop := s.fault = none ∧ s.Legal

/-- The operation does not restore a corrupt transfer state (R26, R33). -/
def trustedOp (i : Instr) : Bool :=
  match i with
  | .load ok img => !ok || decide ((imageTs img).toNat < Config.nStates)
  | .transfer _ | .setButton _ _ | .setButtonCode _ _ | .setAxis _ _ | .getBits | .reset | .resetTransfer | .save _
  | .getType | .xferPoll | .xferSelect | .xferOther _ | .xferIdMsb _ | .xferBtnLsb _ | .xferBtnMsb _ | .xferIllegal _
  | .getButtonCodeByName _ | .getAxisCodeByName _ | .getButtonNames | .getAxisNames | .getVibMotorCount => true

/-- The environment keeps its duties in this input (R205): it resets, or asks nothing, or issues a request that is no
reserved code and no load of a corrupt image. -/
def dutifulInput (inp : Input) : Bool :=
  inp.resets || inp.idle ||
    match inp with
    | .cycle p =>
      match decodeRequest p with
      | .ok i => trustedOp i
      | .error _ => false
    | .wireByte _ => true
    | .query _ => true

/-- The invariant of a safe run: healthy, and everything still to come is dutiful. -/
def State.SafeRun (s : State) : Prop := s.Healthy ∧ ∀ inp ∈ s.inputs, dutifulInput inp = true

/-- The kept fault is the spec's one fault, it carries the value `ts` still holds, and that value is corrupt (R170, R176). -/
def State.FaultRecord (s : State) : Prop := ∀ f, s.fault = some f → f = .invariantViolation s.ts ∧ s.Corrupt

end Sys2Proof.Machine
end

