-- ==== Sys2Proof/Certificates/Slice0/Obligations.lean ====
section
/-! DEFINITION. The statements for the provers. Each docstring names the rule or section of the spec it formalises. -/

open Sys2Proof Sys2Proof.Machine

/-! ### The rows of the transfer table -/

/-- R91. The row, and the transfer that selects it. -/
def Obligations.PollCommandInIdleAnswersIdentityLowByte : Prop :=
  ∀ s : State, s.ts = Config.tsIdle →
    exec .xferPoll s = .next { s with ts := Config.tsIdMsb, rsp := .transfer 0x41#8 true } ∧
    exec (.transfer 0x42#8) s = .next { s with ts := Config.tsIdMsb, rsp := .transfer 0x41#8 true }

/-- R92. The state after is the state before, but for the response. -/
def Obligations.SelectByteInIdleIsAcknowledgedOnly : Prop :=
  ∀ s : State, s.ts = Config.tsIdle →
    exec .xferSelect s = .next { s with rsp := .transfer 0xFF#8 true } ∧
    exec (.transfer 0x01#8) s = .next { s with rsp := .transfer 0xFF#8 true }

/-- R93. All 254 other bytes. -/
def Obligations.OtherByteInIdleEndsTheTransaction : Prop :=
  ∀ (s : State) (b : Byte), s.ts = Config.tsIdle → b ≠ 0x42#8 → b ≠ 0x01#8 →
    exec (.xferOther b) s = .next { s with rsp := .transfer 0xFF#8 false } ∧
    exec (.transfer b) s = .next { s with rsp := .transfer 0xFF#8 false }

/-- R94. For all 256 bytes. -/
def Obligations.IdMsbAnswersIdentityHighByte : Prop :=
  ∀ (s : State) (b : Byte), s.ts = Config.tsIdMsb →
    exec (.xferIdMsb b) s = .next { s with ts := Config.tsButtonsLsb, rsp := .transfer 0x5A#8 true } ∧
    exec (.transfer b) s = .next { s with ts := Config.tsButtonsLsb, rsp := .transfer 0x5A#8 true }

/-- R95. For all 256 bytes; the byte sent is the raw low byte of `btn` at this step. -/
def Obligations.ButtonsLsbAnswersRawLowByte : Prop :=
  ∀ (s : State) (b : Byte), s.ts = Config.tsButtonsLsb →
    exec (.xferBtnLsb b) s =
      .next { s with ts := Config.tsButtonsMsb, rsp := .transfer (BitVec.extractLsb' 0 8 s.btn) true } ∧
    exec (.transfer b) s =
      .next { s with ts := Config.tsButtonsMsb, rsp := .transfer (BitVec.extractLsb' 0 8 s.btn) true }

/-- R96. For all 256 bytes; the byte sent is the raw high byte of `btn` at this step, and the poll is over. -/
def Obligations.ButtonsMsbAnswersRawHighByteAndReturnsToIdle : Prop :=
  ∀ (s : State) (b : Byte), s.ts = Config.tsButtonsMsb →
    exec (.xferBtnMsb b) s =
      .next { s with ts := Config.tsIdle, rsp := .transfer (BitVec.extractLsb' 8 8 s.btn) false } ∧
    exec (.transfer b) s =
      .next { s with ts := Config.tsIdle, rsp := .transfer (BitVec.extractLsb' 8 8 s.btn) false }

/-- R97. A stop: the transfer and its row XFER.ILLEGAL raise the fault in every corrupt state, for all 256 bytes. There is
no next state, hence no response and no write. -/
def Obligations.TransferInCorruptStateFaults : Prop :=
  ∀ (s : State) (b : Byte), s.Corrupt →
    exec (.xferIllegal b) s = .fault (.invariantViolation s.ts) ∧
    exec (.transfer b) s = .fault (.invariantViolation s.ts)

/-! ### Button-state operations -/

/-- R120. Completion, the written bit, the fifteen other bits, and the frame. -/
def Obligations.SetButtonWritesExactlyItsBit : Prop :=
  ∀ (s : State) (b : Button) (p : Bool), ∃ v : Half,
    exec (.setButton b p) s = .next { s with btn := v, rsp := .absent } ∧
    ∀ j < 16, v.getLsbD j = if j = b.code.toNat then !p else s.btn.getLsbD j

/-- R121. In range it is SET_BUTTON of the button with that code, and the one bit is written; out of range (below 0 or above
15, on the whole signed value) nothing is. -/
def Obligations.SetButtonCodeWritesItsBitOrNothing : Prop :=
  ∀ (s : State) (c : Code) (p : Bool),
    (∀ b : Button, c.toInt = b.code.toNat → exec (.setButtonCode c p) s = exec (.setButton b p) s) ∧
    (0 ≤ c.toInt ∧ c.toInt ≤ 15 → ∃ v : Half,
      exec (.setButtonCode c p) s = .next { s with btn := v, rsp := .absent } ∧
      ∀ j < 16, v.getLsbD j = if (j : Int) = c.toInt then !p else s.btn.getLsbD j) ∧
    (c.toInt < 0 ∨ 15 < c.toInt → exec (.setButtonCode c p) s = .next { s with rsp := .absent })

/-- R122. The answer has bit `j` set exactly when `btn` has it clear, and nothing is written. -/
def Obligations.GetBitsAnswersTheComplementOfTheMask : Prop :=
  ∀ s : State, ∃ v : Half, exec .getBits s = .next { s with rsp := .bits v } ∧
    ∀ j < 16, v.getLsbD j = !s.btn.getLsbD j

/-- R123. For every operand value. -/
def Obligations.SetAxisDoesNothing : Prop :=
  ∀ (s : State) (c : Code) (v : BitVec 32), exec (.setAxis c v) s = .next { s with rsp := .absent }

/-! ### Control and persistence -/

/-- R140 and R141. In every state, a corrupt one included. -/
def Obligations.ResetsWriteIdleAndKeepTheButtons : Prop :=
  ∀ s : State,
    exec .reset s = .next { s with ts := Config.tsIdle, rsp := .absent } ∧
    exec .resetTransfer s = .next { s with ts := Config.tsIdle, rsp := .absent }

/-- 42_control_and_persistence.md section 2. The image is `{ts, btn}` (its layout is the spec's decision D5, log entry 4);
with a failed base step there is no image. Neither register is written. -/
def Obligations.SaveAnswersBothRegisters : Prop :=
  ∀ s : State,
    (∃ img : Image, exec (.save true) s = .next { s with rsp := .saved img } ∧
      img.extractLsb' 0 16 = s.btn ∧ img.extractLsb' 16 8 = s.ts) ∧
    exec (.save false) s = .next { s with rsp := .saveFailed }

/-- 42_control_and_persistence.md section 2. Both registers are restored unchecked in one step (decision D3, log entry 2);
with a failed base step nothing is written. -/
def Obligations.LoadRestoresBothRegistersOrNothing : Prop :=
  ∀ (s : State) (img : Image),
    exec (.load true img) s =
      .next { s with btn := img.extractLsb' 0 16, ts := img.extractLsb' 16 8, rsp := .loadResult true } ∧
    exec (.load false img) s = .next { s with rsp := .loadResult false }

/-- R144. For every value of the open parameter TYPE_DIGITAL (log entry 3). -/
def Obligations.GetTypeAnswersTheDiscriminator : Prop :=
  ∀ s : State, exec .getType s = .next { s with rsp := .deviceType Config.typeDigital }

/-! ### Static queries -/

/-- R145. The answer is a code exactly for the sixteen exact names, and not found for every other string. -/
def Obligations.ButtonLookupFindsExactlyTheSixteenNames : Prop :=
  ∀ (s : State) (name : String), ∃ r : Option Nat,
    exec (.getButtonCodeByName name) s = .next { s with rsp := .lookup r } ∧
    ∀ c : Nat, r = some c ↔
      (name, c) ∈ [("Select", 0), ("L3", 1), ("R3", 2), ("Start", 3), ("Up", 4), ("Right", 5), ("Down", 6), ("Left", 7),
        ("L2", 8), ("R2", 9), ("L1", 10), ("R1", 11), ("Triangle", 12), ("Circle", 13), ("Cross", 14), ("Square", 15)]

/-- R146. For every name, the button names among them. -/
def Obligations.AxisLookupFindsNothing : Prop :=
  ∀ (s : State) (name : String), exec (.getAxisCodeByName name) s = .next { s with rsp := .lookup none }

/-- 42_control_and_persistence.md section 4. The list order and the display names are the spec's decision D13, log entry 10. -/
def Obligations.ButtonNamesAreTheSixteenPairs : Prop :=
  ∀ s : State, exec .getButtonNames s = .next (s.respond (.names
    [("Select", 0), ("L3", 1), ("R3", 2), ("Start", 3), ("Up", 4), ("Right", 5), ("Down", 6), ("Left", 7),
      ("L2", 8), ("R2", 9), ("L1", 10), ("R1", 11), ("Triangle", 12), ("Circle", 13), ("Cross", 14), ("Square", 15)]))

/-- R148. -/
def Obligations.AxisNamesAreEmpty : Prop :=
  ∀ s : State, exec .getAxisNames s = .next { s with rsp := .names [] }

/-- R149. -/
def Obligations.VibrationMotorCountIsZero : Prop :=
  ∀ s : State, exec .getVibMotorCount s = .next { s with rsp := .motorCount 0 }

/-! ### Whole-machine rules -/

/-- 30_encoding.md section 6. TRANSFER and the wire decoder select the same row, in every state. -/
def Obligations.TransferRunsTheRowTheTableSelects : Prop :=
  ∀ (s : State) (b : Byte),
    exec (.transfer b) s = exec (decodeTransfer s.ts b) s ∧
    (decodeTransfer s.ts b).wellFormed = true ∧ (decodeTransfer s.ts b).selectedIn s.ts = true

/-- 40_transfer.md section 3. The byte serializer and the continuation flag, as functions of `(ts, in, btn)` and `(ts, in)`,
give the response of every transfer in a legal state. -/
def Obligations.SerializerFormsEveryLegalResponse : Prop :=
  ∀ (s : State) (b : Byte), s.Legal → ∃ n : Byte,
    exec (.transfer b) s =
      .next { s with ts := n, rsp := .transfer (serializer s.ts b s.btn) (continueFlag s.ts b) }

/-- 60_exceptions.md section 1. Among the operations of the block, and the rows where they are selected, only a transfer in a
corrupt state faults, with the value of `ts`; and no operation is refused. -/
def Obligations.OnlyTransfersInCorruptStatesFault : Prop :=
  ∀ (i : Instr) (s : State), i.selectedIn s.ts = true →
    (∀ r, exec i s ≠ .refused r) ∧
    ∀ f, exec i s = .fault f ↔
      f = .invariantViolation s.ts ∧ s.Corrupt ∧ ∃ b, i = .transfer b ∨ i = .xferIllegal b

/-- 10_state.md sections 2 and 3. Who writes which register: `btn` is written by the two setters and a LOAD whose base step
succeeded, `ts` by the host bus driver's operations and that LOAD, the rest by no operation. -/
def Obligations.OperationsWriteOnlyTheirRegisters : Prop :=
  ∀ (i : Instr) (s t : State), exec i s = .next t →
    t.fault = s.fault ∧ t.inputs = s.inputs ∧
    (t.btn ≠ s.btn → (∃ b p, i = .setButton b p) ∨ (∃ c p, i = .setButtonCode c p) ∨ ∃ img, i = .load true img) ∧
    (t.ts ≠ s.ts → agentOf i = .hostBus ∨ ∃ img, i = .load true img)

/-- 10_state.md section 2. Who reads `btn`: whatever `btn` is, an operation does the same to `ts` and gives the same response,
but for the two button rows, GET_BITS and a SAVE whose base step succeeded. -/
def Obligations.ButtonsAreReadOnlyWhereListed : Prop :=
  ∀ (i : Instr) (s t : State) (v : Half), exec i s = .next t →
    ∃ t', exec i { s with btn := v } = .next t' ∧ t'.ts = t.ts ∧
      (t'.rsp = t.rsp ∨ i = .getBits ∨ i = .save true ∨ (∃ b, i = .xferBtnLsb b ∨ i = .xferBtnMsb b) ∨
        ∃ b, i = .transfer b ∧ (s.ts = Config.tsButtonsLsb ∨ s.ts = Config.tsButtonsMsb))

/-- 41_button_state.md section 2. The reader shows what the setter set; setters of two buttons commute; of two setters of one
button the later one counts. -/
def Obligations.SettersAndReaderAgree : Prop :=
  ∀ (s : State) (a b : Button) (p q : Bool),
    (∃ (v : Half) (t : State), runOps [.setButton a p, .getBits] s = .next t ∧ t.rsp = .bits v ∧
      v.getLsbD a.code.toNat = p) ∧
    (a ≠ b → runOps [.setButton a p, .setButton b q] s = runOps [.setButton b q, .setButton a p] s) ∧
    runOps [.setButton a p, .setButton a q] s = runOps [.setButton a q] s

/-- 20_memory.md section 4. The writing operations are idempotent. -/
def Obligations.WritingOperationsAreIdempotent : Prop :=
  ∀ (s : State) (i : Instr),
    ((∃ b p, i = .setButton b p) ∨ (∃ c p, i = .setButtonCode c p) ∨ i = .reset ∨ i = .resetTransfer ∨
      ∃ ok img, i = .load ok img) →
    ∃ t, exec i s = .next t ∧ exec i t = .next t

/-- 40_transfer.md section 4. A whole poll, with and without the select byte, for any filler bytes: its responses, its end, and
that the two button bytes make up the mask. -/
def Obligations.WholePollAnswersIdentityAndMask : Prop :=
  ∀ (s : State) (x y z : Byte), s.ts = Config.tsIdle →
    ∃ lo hi : Byte, 256 * hi.toNat + lo.toNat = s.btn.toNat ∧
      responses (poll x y z) s =
        [.transfer 0xFF#8 true, .transfer 0x41#8 true, .transfer 0x5A#8 true, .transfer lo true, .transfer hi false] ∧
      responses (pollNoSel x y z) s =
        [.transfer 0x41#8 true, .transfer 0x5A#8 true, .transfer lo true, .transfer hi false] ∧
      runOps (poll x y z) s = .next { s with rsp := .transfer hi false } ∧
      runOps (pollNoSel x y z) s = .next { s with rsp := .transfer hi false }

/-- 70_reset_and_hazards.md section 3. A transaction abandoned in a data-phase state goes on one row per byte, whatever the
bytes, and is back in Idle exactly when the rows are used up (the numbers of the states are the spec's decision D2, log
entry 2). -/
def Obligations.AbandonedPollUsesUpItsRows : Prop :=
  ∀ (s : State) (bytes : List Byte), s.Legal → s.ts ≠ Config.tsIdle → s.ts.toNat + bytes.length ≤ 4 →
    ∃ t, runOps (bytes.map .transfer) s = .next t ∧ t.btn = s.btn ∧
      t.ts.toNat = (s.ts.toNat + bytes.length) % 4

/-- 70_reset_and_hazards.md section 3. Tearing: button operations between the two button bytes of a poll change the second byte
and not the first, and leave the framing alone. -/
def Obligations.ButtonBytesAreLiveReads : Prop :=
  ∀ (s : State) (x y : Byte) (ops : List Instr), s.ts = Config.tsButtonsLsb → (∀ i ∈ ops, agentOf i = .inputSource) →
    ∃ m, runOps (.transfer x :: ops) s = .next m ∧
      responses [.transfer x] s = [.transfer (BitVec.extractLsb' 0 8 s.btn) true] ∧
      responses [.transfer y] m = [.transfer (BitVec.extractLsb' 8 8 m.btn) false]

/-- 42_control_and_persistence.md section 5. A LOAD of the image a SAVE returned restores both registers, whatever came in
between, a corrupt transfer state included. -/
def Obligations.LoadOfASavedImageRestoresTheState : Prop :=
  ∀ s : State, ∃ img : Image, exec (.save true) s = .next { s with rsp := .saved img } ∧
    ∀ m : State, exec (.load true img) m = .next { m with btn := s.btn, ts := s.ts, rsp := .loadResult true }

/-- 41_button_state.md section 2 and 40_transfer.md section 4. Take every button operation out of a sequence, and start from
any other mask: the continuation flags and the transfer state are the same. -/
def Obligations.ButtonHistoryNeverChangesTheFraming : Prop :=
  ∀ (ops : List Instr) (s s' : State), s.ts = s'.ts →
    continueTrace ops s = continueTrace (ops.filter fun i => decide (agentOf i ≠ .inputSource)) s' ∧
    ∀ t, runOps ops s = .next t →
      ∃ t', runOps (ops.filter fun i => decide (agentOf i ≠ .inputSource)) s' = .next t' ∧ t'.ts = t.ts

/-- 42_control_and_persistence.md section 5. After RESET, from any state, every list of bytes completes as on a freshly
constructed block, whatever its BTN_RESET is: with the same continuation flags and the same transfer state after it (hence
after each of its prefixes), and the byte that comes next is answered alike, but for the two button bytes. These are alike
exactly when the byte of `btn` they read is, so that with equal masks all responses are equal. -/
def Obligations.ResetActsLikeAFreshBlock : Prop :=
  ∀ (s : State) (b : Half) (bytes : List Byte), ∃ t u v : State,
    exec .reset s = .next t ∧
    runOps (bytes.map .transfer) t = .next u ∧ runOps (bytes.map .transfer) (State.powerOn b []) = .next v ∧
    u.ts = v.ts ∧
    continueTrace (bytes.map .transfer) t = continueTrace (bytes.map .transfer) (State.powerOn b []) ∧
    (∀ x : Byte,
      (u.ts ≠ Config.tsButtonsLsb → u.ts ≠ Config.tsButtonsMsb →
        responses [.transfer x] u = responses [.transfer x] v) ∧
      (u.ts = Config.tsButtonsLsb →
        (responses [.transfer x] u = responses [.transfer x] v ↔
          BitVec.extractLsb' 0 8 s.btn = BitVec.extractLsb' 0 8 b)) ∧
      (u.ts = Config.tsButtonsMsb →
        (responses [.transfer x] u = responses [.transfer x] v ↔
          BitVec.extractLsb' 8 8 s.btn = BitVec.extractLsb' 8 8 b))) ∧
    (s.btn = b → responses (bytes.map .transfer) t = responses (bytes.map .transfer) (State.powerOn b []))

/-- 10_state.md section 6. Every mask and every legal transfer state is reached from power-on by at most 16 SET_BUTTON
operations and then at most three TRANSFER operations, the first of them of the poll command, and by nothing else (the
numbers of the states are the spec's decision D2, log entry 2). -/
def Obligations.EveryLegalStateIsReachable : Prop :=
  ∀ (m : Half) (k : Nat), k < 4 → ∃ (presses : List (Button × Bool)) (bytes : List Byte) (t : State),
    presses.length ≤ 16 ∧ bytes.length ≤ 3 ∧ (bytes ≠ [] → bytes.head? = some 0x42#8) ∧
    runOps (presses.map (fun x => .setButton x.1 x.2) ++ bytes.map .transfer) State.reset = .next t ∧
    t.btn = m ∧ t.ts.toNat = k

/-! ### The step -/

/-- 10_state.md section 7 and 70_reset_and_hazards.md section 1. The state after power-on (`btn` is the spec's decision D1, log
entry 1; that nothing has been presented or answered is the model's choice, log entries 6 and 7). -/
def Obligations.ResetStateIsThePowerOnState : Prop :=
  State.reset.btn = 0xFFFF#16 ∧ State.reset.ts = 0#8 ∧ State.reset.halted = false ∧
    State.reset.inputs = [] ∧ State.reset.rsp = .absent

/-- 30_encoding.md section 7. A step performs exactly the operation its input names: the outcome is that of `exec` on the state
with the input taken, and a fault is kept in `fault` with both registers unwritten (the clocked form of the fault is the
spec's decision D7, log entry 5). -/
def Obligations.StepPerformsTheDecodedInstruction : Prop :=
  ∀ (s : State) (inp : Input) (rest : List Input) (i : Instr), s.inputs = inp :: rest → s.fault = none →
    inp.resets = false → inp.idle = false → decode s.ts inp = .ok i →
    (∀ t, exec i { s with inputs := rest } = .next t → step s = .next t) ∧
    (∀ f, exec i { s with inputs := rest } = .fault f →
      step s = .next { s with inputs := rest, fault := some f, rsp := .absent }) ∧
    (∀ r, exec i { s with inputs := rest } = .refused r → step s = .refused r)

/-- 60_exceptions.md section 5. In the clocked binding a transfer in a corrupt state, as a request or as a byte on the wire,
halts the block: the fault is kept, neither register is written, no response is valid (decision D7, log entry 5). -/
def Obligations.CorruptTransferHaltsTheBlock : Prop :=
  ∀ (s : State) (inp : Input) (rest : List Input) (b : Byte), s.inputs = inp :: rest → s.fault = none → s.Corrupt →
    (inp = .wireByte b ∨ inp = encode (.transfer b)) →
    step s = .next { s with inputs := rest, fault := some (.invariantViolation s.ts), rsp := .absent }

/-- 70_reset_and_hazards.md section 1. The pin `por_n` overrides the request of its cycle and clears `halted`, in every state
(decisions D1 and D16, log entries 1 and 12). -/
def Obligations.PowerOnPinOverridesEverything : Prop :=
  ∀ (s : State) (p : Ports) (rest : List Input), s.inputs = .cycle p :: rest → p.porN = false →
    step s = .next { btn := 0xFFFF#16, ts := 0#8, fault := none, inputs := rest, rsp := .absent }

/-- 30_encoding.md section 7. Without a request nothing changes, and no response is valid; nothing presented is the same
(decision D9, log entry 6). -/
def Obligations.NoRequestChangesNothing : Prop :=
  ∀ s : State,
    (s.inputs = [] → step s = .next { s with rsp := .absent }) ∧
    ∀ (p : Ports) (rest : List Input), s.inputs = .cycle p :: rest → p.porN = true → p.reqValid = false →
      step s = .next { s with inputs := rest, rsp := .absent }

/-- 30_encoding.md section 9. A stop: a request with a reserved code is refused by its code (decision D11). -/
def Obligations.ReservedRequestCodeIsRefused : Prop :=
  ∀ (s : State) (p : Ports) (rest : List Input), s.inputs = .cycle p :: rest → s.fault = none → p.porN = true →
    p.reqValid = true → 10 ≤ p.reqOp.toNat → step s = .refused (.reservedRequestCode p.reqOp)

/-- 30_encoding.md section 1. A byte clocked on the wire and a TRANSFER request of that byte are one step, whatever the other
ports hold. -/
def Obligations.WireByteIsATransferRequest : Prop :=
  ∀ (s : State) (p : Ports) (rest : List Input), p.porN = true → p.reqValid = true → p.reqOp = 0#4 →
    step { s with inputs := .cycle p :: rest } = step { s with inputs := .wireByte p.reqByte :: rest }

/-- The model's own placing of a table word (log entry 11): the very next step performs exactly the instruction that
`decodeTableWord` reads, on a state that has the registers of `s`, but for Idle under a byte on the wire. -/
def Obligations.PlacedTableWordIsPerformedNext : Prop :=
  ∀ (s : State) (nbits w : Nat) (i : Instr), decodeTableWord nbits w = some i → ∃ u : State,
    u.btn = s.btn ∧ (u.ts = s.ts ∨ u.ts = Config.tsIdle) ∧ u.fault = none ∧ u.inputs = s.inputs ∧
    ∀ t, exec i u = .next t → step (s.withFetchWord nbits w) = .next t

/-- 60_exceptions.md section 5. Once raised the fault is kept: in any number of steps without a power-on reset nothing is
performed, whatever is presented (decision D7, log entry 5). -/
def Obligations.HaltedBlockPerformsNothing : Prop :=
  ∀ (k : Nat) (s : State), s.halted = true → (∀ inp ∈ s.inputs.take k, inp.resets = false) →
    ∃ t : State, runSteps k s = .next t ∧ t.btn = s.btn ∧ t.ts = s.ts ∧ t.fault = s.fault ∧
      t.inputs = s.inputs.drop k ∧ (0 < k → t.rsp = .absent)

/-! ### Invariants -/

/-- 10_state.md section 6 and 70_reset_and_hazards.md section 5. A block in a safe run never stops and stays in a safe run: no
fault, a legal transfer state, and dutiful inputs to come. -/
def Obligations.SafeRunsGoOnForEver : Prop :=
  ∀ s : State, s.SafeRun → ∃ t, step s = .next t ∧ t.SafeRun

/-- 60_exceptions.md section 5. Every step keeps the record of the fault: what is kept is InvariantViolation with the value
`ts` still holds, and that value is corrupt. -/
def Obligations.FaultRecordIsKeptByEveryStep : Prop :=
  ∀ s t : State, s.FaultRecord → step s = .next t → t.FaultRecord

/-- The two invariants hold at reset (log entries 1 and 6). -/
def Obligations.ResetStateMeetsTheInvariants : Prop :=
  State.reset.SafeRun ∧ State.reset.FaultRecord

/-! ### Encoding -/

/-- Words written out bit by bit, and the instructions they stand for. First the command bytes of 30_encoding.md section 2 in
Idle and in the other transfer states, whose numbers are the spec's decision D2 (log entry 2). Then one request cycle, its
operand ports all set, with each of the sixteen codes, which are the spec's decisions D10 and D11 (log entry 17). Last, four
words as the model reads the opcode table's (the model's own choice, log entry 11: a byte below 16 is a request code, any
other a byte on the wire in Idle). -/
def Obligations.WordsDecodeToTheirInstructions : Prop :=
  let cycle (op : BitVec 4) : Input :=
    .cycle ⟨true, true, op, 0x42#8, 0b1110#4, 0xFFFFFFF3#32, true, 6#32, 0x02BFF7#24, true⟩
  decode 0#8 (.wireByte 0b01000010#8) = .ok .xferPoll ∧
  decode 0#8 (.wireByte 0b00000001#8) = .ok .xferSelect ∧
  decode 0#8 (.wireByte 0b01000011#8) = .ok (.xferOther 0x43#8) ∧
  decode 1#8 (.wireByte 0b01000010#8) = .ok (.xferIdMsb 0x42#8) ∧
  decode 2#8 (.wireByte 0b00000001#8) = .ok (.xferBtnLsb 0x01#8) ∧
  decode 3#8 (.wireByte 0b00000000#8) = .ok (.xferBtnMsb 0x00#8) ∧
  decode 4#8 (.wireByte 0b01000010#8) = .ok (.xferIllegal 0x42#8) ∧
  decode 0#8 (cycle 0b0000#4) = .ok (.transfer 0x42#8) ∧
  decode 0#8 (cycle 0b0001#4) = .ok (.setButton .cross true) ∧
  decode 0#8 (cycle 0b0010#4) = .ok (.setButtonCode 0xFFFFFFF3#32 true) ∧
  decode 0#8 (cycle 0b0011#4) = .ok (.setAxis 0xFFFFFFF3#32 6#32) ∧
  decode 0#8 (cycle 0b0100#4) = .ok .getBits ∧
  decode 0#8 (cycle 0b0101#4) = .ok .reset ∧
  decode 0#8 (cycle 0b0110#4) = .ok .resetTransfer ∧
  decode 0#8 (cycle 0b0111#4) = .ok (.save true) ∧
  decode 0#8 (cycle 0b1000#4) = .ok (.load true 0x02BFF7#24) ∧
  decode 0#8 (cycle 0b1001#4) = .ok .getType ∧
  (∀ op ∈ [0b1010#4, 0b1011#4, 0b1100#4, 0b1101#4, 0b1110#4, 0b1111#4],
    decode 0#8 (cycle op) = .error (.reservedRequestCode op)) ∧
  decodeTableWord 8 0b00000001 = some (.setButton .select false) ∧
  decodeTableWord 8 0b00001000 = some (.load false 0#24) ∧
  decodeTableWord 8 0b00001001 = some .getType ∧
  decodeTableWord 8 0b01000010 = some .xferPoll

/-- 30_encoding.md sections 6, 7 and 8. Every well-formed instruction, with every operand at every value, in every transfer
state that selects it, is what its encoding decodes to. -/
def Obligations.DecodeOfEncodeIsTheInstruction : Prop :=
  ∀ (i : Instr) (ts : Byte), i.wellFormed = true → i.selectedIn ts = true → decode ts (encode i) = .ok i

/-- 30_encoding.md section 6. Whatever decodes is well formed and selected in that state, and a byte on the wire or a static
query is the one encoding of what it decodes to. -/
def Obligations.DecodedInstructionIsWellFormedAndSelected : Prop :=
  ∀ (ts : Byte) (inp : Input) (i : Instr), decode ts inp = .ok i →
    i.wellFormed = true ∧ i.selectedIn ts = true ∧
    (∀ b, inp = .wireByte b → encode i = .wireByte b) ∧ ∀ q, inp = .query q → encode i = .query q

/-- 30_encoding.md section 7. An operand port an operation does not use is ignored by it. -/
def Obligations.UnusedOperandPortsAreIgnored : Prop :=
  ∀ p q : Ports, p.reqOp = q.reqOp →
    (p.reqOp = 0#4 → p.reqByte = q.reqByte) →
    (p.reqOp = 1#4 → p.reqButton = q.reqButton ∧ p.reqPressed = q.reqPressed) →
    (p.reqOp = 2#4 → p.reqCode = q.reqCode ∧ p.reqPressed = q.reqPressed) →
    (p.reqOp = 3#4 → p.reqCode = q.reqCode ∧ p.reqAxisValue = q.reqAxisValue) →
    (p.reqOp = 7#4 → p.reqBaseOk = q.reqBaseOk) →
    (p.reqOp = 8#4 → p.reqBaseOk = q.reqBaseOk ∧ p.reqImage = q.reqImage) →
    decodeRequest p = decodeRequest q
end

