-- ==== Sys2Proof/Laws/Decode.lean ====
section
/-! SUPPORT. The small lemmas of the decoder's parts. -/

namespace Sys2Proof

@[simp] theorem ofCode_code (b : Button) : Button.ofCode b.code = b := by cases b <;> rfl

@[simp] theorem code_ofCode : ∀ c : BitVec 4, (Button.ofCode c).code = c := by decide

/-- A cycle of the request ports is read by the request layer alone. -/
theorem decode_cycle (ts : Byte) (p : Ports) : decode ts (.cycle p) = decodeRequest p := rfl

/-- The rows of Idle (R69). -/
theorem decodeTransfer_idle (b : Byte) : decodeTransfer Config.tsIdle b =
    if b = Config.cmdPoll then .xferPoll else if b = Config.cmdSelect then .xferSelect else .xferOther b := rfl

theorem decodeTransfer_idMsb (b : Byte) : decodeTransfer Config.tsIdMsb b = .xferIdMsb b := rfl

theorem decodeTransfer_buttonsLsb (b : Byte) : decodeTransfer Config.tsButtonsLsb b = .xferBtnLsb b := rfl

theorem decodeTransfer_buttonsMsb (b : Byte) : decodeTransfer Config.tsButtonsMsb b = .xferBtnMsb b := rfl

/-- Outside the four codes there is one row (R69). -/
theorem decodeTransfer_corrupt {ts : Byte} (b : Byte) (h : Config.nStates ≤ ts.toNat) :
    decodeTransfer ts b = .xferIllegal b := by
  have h4 : 4 ≤ ts.toNat := h
  have hne : ∀ k : Nat, k < 4 → ts ≠ BitVec.ofNat 8 k := by
    rintro k hk rfl
    simp at h4
    omega
  have h0 : ts ≠ Config.tsIdle := hne 0 (by omega)
  have h1 : ts ≠ Config.tsIdMsb := hne 1 (by omega)
  have h2 : ts ≠ Config.tsButtonsLsb := hne 2 (by omega)
  have h3 : ts ≠ Config.tsButtonsMsb := hne 3 (by omega)
  rw [decodeTransfer, if_neg h0, if_neg h1, if_neg h2, if_neg h3]

/-- A legal transfer state is one of the four codes (R23). -/
theorem legal_ts_cases {ts : Byte} (h : ts.toNat < Config.nStates) :
    ts = Config.tsIdle ∨ ts = Config.tsIdMsb ∨ ts = Config.tsButtonsLsb ∨ ts = Config.tsButtonsMsb := by
  have h4 : ts.toNat < 4 := h
  simp only [Config.tsIdle, Config.tsIdMsb, Config.tsButtonsLsb, Config.tsButtonsMsb]
  bv_omega

end Sys2Proof
end

