-- ==== Sys2Proof/Laws/State.lean ====
section
/-! SUPPORT. One lemma per field and update of the state, so that no later proof unfolds a record update. -/

namespace Sys2Proof.Machine

variable (s : State)

@[simp] theorem setBtn_btn (v : Half) : (s.setBtn v).btn = v := rfl
@[simp] theorem setBtn_ts (v : Half) : (s.setBtn v).ts = s.ts := rfl
@[simp] theorem setBtn_fault (v : Half) : (s.setBtn v).fault = s.fault := rfl
@[simp] theorem setBtn_inputs (v : Half) : (s.setBtn v).inputs = s.inputs := rfl
@[simp] theorem setBtn_rsp (v : Half) : (s.setBtn v).rsp = s.rsp := rfl

@[simp] theorem setTs_btn (v : Byte) : (s.setTs v).btn = s.btn := rfl
@[simp] theorem setTs_ts (v : Byte) : (s.setTs v).ts = v := rfl
@[simp] theorem setTs_fault (v : Byte) : (s.setTs v).fault = s.fault := rfl
@[simp] theorem setTs_inputs (v : Byte) : (s.setTs v).inputs = s.inputs := rfl
@[simp] theorem setTs_rsp (v : Byte) : (s.setTs v).rsp = s.rsp := rfl

@[simp] theorem respond_btn (r : Response) : (s.respond r).btn = s.btn := rfl
@[simp] theorem respond_ts (r : Response) : (s.respond r).ts = s.ts := rfl
@[simp] theorem respond_fault (r : Response) : (s.respond r).fault = s.fault := rfl
@[simp] theorem respond_inputs (r : Response) : (s.respond r).inputs = s.inputs := rfl
@[simp] theorem respond_rsp (r : Response) : (s.respond r).rsp = r := rfl

@[simp] theorem setInputs_btn (l : List Input) : (s.setInputs l).btn = s.btn := rfl
@[simp] theorem setInputs_ts (l : List Input) : (s.setInputs l).ts = s.ts := rfl
@[simp] theorem setInputs_fault (l : List Input) : (s.setInputs l).fault = s.fault := rfl
@[simp] theorem setInputs_inputs (l : List Input) : (s.setInputs l).inputs = l := rfl
@[simp] theorem setInputs_rsp (l : List Input) : (s.setInputs l).rsp = s.rsp := rfl

@[simp] theorem writeButton_btn (i : Nat) (p : Bool) : (s.writeButton i p).btn = writeButtonBit s.btn i p := rfl
@[simp] theorem writeButton_ts (i : Nat) (p : Bool) : (s.writeButton i p).ts = s.ts := rfl
@[simp] theorem writeButton_fault (i : Nat) (p : Bool) : (s.writeButton i p).fault = s.fault := rfl
@[simp] theorem writeButton_inputs (i : Nat) (p : Bool) : (s.writeButton i p).inputs = s.inputs := rfl

@[simp] theorem halt_btn (f : Fault) : (s.halt f).btn = s.btn := rfl
@[simp] theorem halt_ts (f : Fault) : (s.halt f).ts = s.ts := rfl
@[simp] theorem halt_fault (f : Fault) : (s.halt f).fault = some f := rfl
@[simp] theorem halt_inputs (f : Fault) : (s.halt f).inputs = s.inputs := rfl
@[simp] theorem halt_rsp (f : Fault) : (s.halt f).rsp = .absent := rfl

@[simp] theorem noRequest_btn : s.noRequest.btn = s.btn := rfl
@[simp] theorem noRequest_ts : s.noRequest.ts = s.ts := rfl
@[simp] theorem noRequest_fault : s.noRequest.fault = s.fault := rfl
@[simp] theorem noRequest_inputs : s.noRequest.inputs = s.inputs := rfl
@[simp] theorem noRequest_rsp : s.noRequest.rsp = .absent := rfl

@[simp] theorem powerOn_btn (b : Half) (l : List Input) : (State.powerOn b l).btn = b := rfl
@[simp] theorem powerOn_ts (b : Half) (l : List Input) : (State.powerOn b l).ts = Config.tsIdle := rfl
@[simp] theorem powerOn_fault (b : Half) (l : List Input) : (State.powerOn b l).fault = none := rfl
@[simp] theorem powerOn_inputs (b : Half) (l : List Input) : (State.powerOn b l).inputs = l := rfl
@[simp] theorem powerOn_rsp (b : Half) (l : List Input) : (State.powerOn b l).rsp = .absent := rfl

end Sys2Proof.Machine
end

