-- ==== Sys2Proof/Laws/Ops.lean ====
section
/-! SUPPORT. One lemma per shared operation, saying once everything it can do. -/

namespace Sys2Proof.Machine

/-! ### Values -/

/-- The two halves of a word make the word (R126). -/
theorem hi8_lo8_toNat (w : Half) : 256 * (hi8 w).toNat + (lo8 w).toNat = w.toNat := by
  simp [hi8, lo8, Nat.shiftRight_eq_div_pow]
  omega

/-- `not16` is its own inverse (R126). -/
theorem not16_not16 (w : Half) : not16 (not16 w) = w := by simp [not16]

/-- Bit `j` of a one-bit mask. -/
theorem bitMask_getLsbD (i j : Nat) (hj : j < 16) : (bitMask i).getLsbD j = decide (j = i) := by
  rw [bitMask, BitVec.getLsbD_shiftLeft, BitVec.getLsbD_one, Bool.eq_iff_iff]
  simp only [Bool.and_eq_true, Bool.not_eq_true', decide_eq_true_eq, decide_eq_false_iff_not]
  omega

/-- Bit `j` after the write of bit `i`: the complement of `pressed` at `i`, the old bit elsewhere (R120). -/
theorem writeButtonBit_getLsbD (w : Half) (i j : Nat) (p : Bool) (hj : j < 16) :
    (writeButtonBit w i p).getLsbD j = if j = i then !p else w.getLsbD j := by
  have hm := bitMask_getLsbD i j hj
  rcases eq_or_ne j i with rfl | h
  · cases p <;> simp [writeButtonBit, not16, hm]
  · rw [decide_eq_false h] at hm
    cases p <;> simp only [writeButtonBit, not16, if_true, if_false, Bool.false_eq_true, BitVec.getLsbD_or,
      BitVec.getLsbD_and, BitVec.getLsbD_not, hm, hj, h] <;> simp

/-- A packed image as a number: the mask in the low 16 bits, the transfer state above it (R68). -/
theorem packImage_toNat (ts : Byte) (btn : Half) : (packImage ts btn).toNat = ts.toNat * 65536 + btn.toNat := by
  rw [packImage, BitVec.toNat_append, ← Nat.shiftLeft_add_eq_or_of_lt btn.isLt, Nat.shiftLeft_eq]

/-- The mask of a packed image is the mask that was packed (R68). -/
@[simp] theorem imageBtn_packImage (ts : Byte) (btn : Half) : imageBtn (packImage ts btn) = btn := by
  apply BitVec.eq_of_toNat_eq
  rw [imageBtn, BitVec.extractLsb'_toNat, packImage_toNat, Nat.shiftRight_zero]
  omega

/-- The transfer state of a packed image is the one that was packed (R68). -/
@[simp] theorem imageTs_packImage (ts : Byte) (btn : Half) : imageTs (packImage ts btn) = ts := by
  apply BitVec.eq_of_toNat_eq
  rw [imageTs, BitVec.extractLsb'_toNat, packImage_toNat, Nat.shiftRight_eq_div_pow]
  omega

/-- An integer code selects an index exactly when its whole signed value is in range (R76). -/
theorem codeIndex?_eq_some {c : Code} {i : Nat} : codeIndex? c = some i ↔ c.toInt = i ∧ i ≤ 15 := by
  unfold codeIndex?
  split
  · rename_i h; rw [Option.some.injEq]; omega
  · rename_i h; simp; omega

theorem codeIndex?_eq_none {c : Code} : codeIndex? c = none ↔ ¬(0 ≤ c.toInt ∧ c.toInt ≤ 15) := by
  unfold codeIndex?
  split <;> simp_all

/-! ### Outcomes -/

theorem complete_eq (s : State) (r : Response) : complete s r = .next (s.respond r) := rfl

theorem transferRow_eq (s : State) (b n : Byte) (c : Bool) :
    transferRow s b n c = .next ((s.setTs n).respond (.transfer b c)) := rfl

theorem raiseInvariantViolation_eq (s : State) : raiseInvariantViolation s = .fault (.invariantViolation s.ts) := rfl

/-- When a latched outcome is a next state: the operation's own, or the state before it, halted. -/
theorem latchFault_eq_next {s t : State} {r : Result} :
    latchFault s r = .next t ↔ r = .next t ∨ ∃ f, r = .fault f ∧ t = s.halt f := by
  cases r <;> simp [latchFault, eq_comm]

theorem refuse_ne_next (e : Reject) (t : State) : refuse e ≠ .next t := by
  cases e; simp [refuse]

/-- The outcome, where it is a next state, has the kept fault and the environment's inputs of `s`. -/
def KeepsEnvironment (s : State) (r : Result) : Prop := ∀ t, r = .next t → t.fault = s.fault ∧ t.inputs = s.inputs

theorem keepsEnvironment_complete {s u : State} {r : Response} (hf : u.fault = s.fault) (hi : u.inputs = s.inputs) :
    KeepsEnvironment s (complete u r) := by
  intro t h
  cases h
  exact ⟨hf, hi⟩

theorem keepsEnvironment_fault (s : State) (f : Fault) : KeepsEnvironment s (.fault f) := by
  intro t h
  cases h

theorem keepsEnvironment_execTransfer (b : Byte) (s : State) : KeepsEnvironment s (execTransfer b s) := by
  unfold execTransfer
  split_ifs
  all_goals first | exact keepsEnvironment_complete rfl rfl | exact keepsEnvironment_fault s _

theorem keepsEnvironment_execSetButtonCode (c : Code) (p : Bool) (s : State) :
    KeepsEnvironment s (execSetButtonCode c p s) := by
  unfold execSetButtonCode
  split <;> exact keepsEnvironment_complete rfl rfl

/-- Whatever completes, an operation leaves the kept fault and the environment's inputs alone. -/
theorem exec_keepsEnvironment (i : Instr) (s : State) : KeepsEnvironment s (exec i s) := by
  cases i with
  | transfer b => exact keepsEnvironment_execTransfer b s
  | setButtonCode c p => exact keepsEnvironment_execSetButtonCode c p s
  | save ok => cases ok <;> exact keepsEnvironment_complete rfl rfl
  | load ok img => cases ok <;> exact keepsEnvironment_complete rfl rfl
  | xferIllegal b => exact keepsEnvironment_fault s _
  | _ => exact keepsEnvironment_complete rfl rfl

/-! ### The step -/

/-- Everything a step that goes on can do: nothing was presented; or the input reset the block; or nothing was performed; or
the named operation completed; or it raised the fault, which is kept. -/
theorem step_cases {s t : State} (h : step s = .next t) :
    (s.inputs = [] ∧ t = s.noRequest) ∨
    ∃ inp rest, s.inputs = inp :: rest ∧
      ((inp.resets = true ∧ t = State.powerOn Config.btnReset rest) ∨
       (inp.resets = false ∧ (s.halted || inp.idle) = true ∧ t = (s.setInputs rest).noRequest) ∨
       (inp.resets = false ∧ s.halted = false ∧ inp.idle = false ∧
        ∃ i, decode s.ts inp = .ok i ∧
          (exec i (s.setInputs rest) = .next t ∨
           ∃ f, exec i (s.setInputs rest) = .fault f ∧ t = (s.setInputs rest).halt f))) := by
  unfold step takeInput at h
  split at h
  · rename_i h0
    exact .inl ⟨h0, by cases h; rfl⟩
  · rename_i inp rest h0
    refine .inr ⟨inp, rest, h0, ?_⟩
    unfold performInput at h
    split at h
    · rename_i hr
      exact .inl ⟨hr, by cases h; rfl⟩
    · rename_i hr
      have hr : inp.resets = false := by simpa using hr
      split at h
      · rename_i hi
        exact .inr (.inl ⟨hr, hi, by cases h; rfl⟩)
      · rename_i hi
        have hi : s.halted = false ∧ inp.idle = false := by
          simpa [State.halted] using hi
        refine .inr (.inr ⟨hr, hi.1, hi.2, ?_⟩)
        split at h
        · exact absurd h (refuse_ne_next _ _)
        · rename_i i hd
          exact ⟨i, hd, latchFault_eq_next.mp h⟩

/-! ### Legal states -/

/-- A state whose transfer state has one of the four codes is legal (R23). -/
theorem legal_of_ts {s : State} {x : Byte} (h : s.ts = x) (hx : x.toNat < Config.nStates) : s.Legal := by
  rw [State.Legal, h]; exact hx

theorem tsIdle_lt : Config.tsIdle.toNat < Config.nStates := by decide
theorem tsIdMsb_lt : Config.tsIdMsb.toNat < Config.nStates := by decide
theorem tsButtonsLsb_lt : Config.tsButtonsLsb.toNat < Config.nStates := by decide
theorem tsButtonsMsb_lt : Config.tsButtonsMsb.toNat < Config.nStates := by decide

/-- Every transfer state is legal or corrupt, and not both (R26). -/
theorem legal_iff_not_corrupt (s : State) : s.Legal ↔ ¬s.Corrupt := by
  unfold State.Legal State.Corrupt; omega

/-! ### Runs -/

/-- One more step (R49). -/
theorem runSteps_succ_eq_next {k : Nat} {s t : State} :
    runSteps (k + 1) s = .next t ↔ ∃ m, step s = .next m ∧ runSteps k m = .next t := by
  rw [runSteps]
  cases step s <;> simp

theorem runOps_nil (s : State) : runOps [] s = .next s := rfl

/-- A run that completes is its first operation completing, then the rest. -/
theorem runOps_cons_eq_next {i : Instr} {l : List Instr} {s t : State} :
    runOps (i :: l) s = .next t ↔ ∃ m, exec i s = .next m ∧ runOps l m = .next t := by
  simp only [runOps]
  cases exec i s <;> simp

/-- Runs compose (R49). -/
theorem runOps_append_eq_next {l₁ l₂ : List Instr} {s t : State} :
    runOps (l₁ ++ l₂) s = .next t ↔ ∃ m, runOps l₁ s = .next m ∧ runOps l₂ m = .next t := by
  induction l₁ generalizing s with
  | nil => simp [runOps]
  | cons i l ih =>
    rw [List.cons_append, runOps_cons_eq_next]
    simp only [ih, runOps_cons_eq_next]
    constructor
    · rintro ⟨m, hm, u, hu, ht⟩; exact ⟨u, ⟨m, hm, hu⟩, ht⟩
    · rintro ⟨u, ⟨m, hm, hu⟩, ht⟩; exact ⟨m, hm, u, hu, ht⟩

end Sys2Proof.Machine
end

