-- ==== Sys2Proof/Laws/PerInstr.lean ====
section
/-! SUPPORT. The round trip of the encoding, one lemma per instruction: in a transfer state that selects it, a well-formed
instruction is what its encoding decodes to. -/

namespace Sys2Proof.Laws.RoundTrip

/-- Decoding the encoding of `i` gives `i` back. -/
def Statement (i : Instr) : Prop :=
  ∀ ts : Byte, i.wellFormed = true → i.selectedIn ts = true → decode ts (encode i) = .ok i

theorem transfer (b : Byte) : Statement (.transfer b) := fun _ _ _ => rfl
theorem setButton (b : Button) (p : Bool) : Statement (.setButton b p) := fun _ _ _ => by
  show Except.ok (Instr.setButton (Button.ofCode b.code) p) = _
  rw [ofCode_code]
theorem setButtonCode (c : Code) (p : Bool) : Statement (.setButtonCode c p) := fun _ _ _ => rfl
theorem setAxis (c : Code) (v : BitVec 32) : Statement (.setAxis c v) := fun _ _ _ => rfl
theorem getBits : Statement .getBits := fun _ _ _ => rfl
theorem reset : Statement .reset := fun _ _ _ => rfl
theorem resetTransfer : Statement .resetTransfer := fun _ _ _ => rfl
theorem save (ok : Bool) : Statement (.save ok) := fun _ _ _ => rfl
theorem load (ok : Bool) (img : Image) : Statement (.load ok img) := fun _ _ _ => rfl
theorem getType : Statement .getType := fun _ _ _ => rfl
theorem xferPoll : Statement .xferPoll := fun ts _ hs => by
  cases (beq_iff_eq.mp hs : ts = Config.tsIdle); rfl
theorem xferSelect : Statement .xferSelect := fun ts _ hs => by
  cases (beq_iff_eq.mp hs : ts = Config.tsIdle); rfl
theorem xferOther (b : Byte) : Statement (.xferOther b) := fun ts hw hs => by
  cases (beq_iff_eq.mp hs : ts = Config.tsIdle)
  have hb : b ≠ Config.cmdPoll ∧ b ≠ Config.cmdSelect := by simpa [Instr.wellFormed] using hw
  simp [encode, decode, decodeTransfer_idle, hb.1, hb.2]
theorem xferIdMsb (b : Byte) : Statement (.xferIdMsb b) := fun ts _ hs => by
  cases (beq_iff_eq.mp hs : ts = Config.tsIdMsb); rfl
theorem xferBtnLsb (b : Byte) : Statement (.xferBtnLsb b) := fun ts _ hs => by
  cases (beq_iff_eq.mp hs : ts = Config.tsButtonsLsb); rfl
theorem xferBtnMsb (b : Byte) : Statement (.xferBtnMsb b) := fun ts _ hs => by
  cases (beq_iff_eq.mp hs : ts = Config.tsButtonsMsb); rfl
theorem xferIllegal (b : Byte) : Statement (.xferIllegal b) := fun _ _ hs =>
  congrArg Except.ok (decodeTransfer_corrupt b (of_decide_eq_true hs))
theorem getButtonCodeByName (n : String) : Statement (.getButtonCodeByName n) := fun _ _ _ => rfl
theorem getAxisCodeByName (n : String) : Statement (.getAxisCodeByName n) := fun _ _ _ => rfl
theorem getButtonNames : Statement .getButtonNames := fun _ _ _ => rfl
theorem getAxisNames : Statement .getAxisNames := fun _ _ _ => rfl
theorem getVibMotorCount : Statement .getVibMotorCount := fun _ _ _ => rfl

end Sys2Proof.Laws.RoundTrip
end

