-- ==== Sys2Proof/Machine/Trace.lean ====
section
/-! DEFINITION. The trace notation of R80 (decision D15), the spec's assembler syntax: mnemonics, lines, responses, and the
port encoding of a line. It is text about the machine; no step reads it. -/

namespace Sys2Proof.Machine

/-- The mnemonic of the opcode table (R69, R71). -/
def mnemonic (i : Instr) : String :=
  match i with
  | .transfer _ => "TRANSFER" | .setButton _ _ => "SET_BUTTON" | .setButtonCode _ _ => "SET_BUTTON_CODE"
  | .setAxis _ _ => "SET_AXIS" | .getBits => "GET_BITS" | .reset => "RESET" | .resetTransfer => "RESET_TRANSFER"
  | .save _ => "SAVE" | .load _ _ => "LOAD" | .getType => "GET_TYPE"
  | .xferPoll => "XFER.POLL" | .xferSelect => "XFER.SELECT" | .xferOther _ => "XFER.OTHER" | .xferIdMsb _ => "XFER.IDMSB"
  | .xferBtnLsb _ => "XFER.BTNLSB" | .xferBtnMsb _ => "XFER.BTNMSB" | .xferIllegal _ => "XFER.ILLEGAL"
  | .getButtonCodeByName _ => "GET_BUTTON_CODE_BY_NAME" | .getAxisCodeByName _ => "GET_AXIS_CODE_BY_NAME"
  | .getButtonNames => "GET_BUTTON_NAMES" | .getAxisNames => "GET_AXIS_NAMES"
  | .getVibMotorCount => "GET_VIB_MOTOR_COUNT"

/-- The last `digits` hexadecimal digits of a number. -/
def hexDigits (digits n : Nat) : String :=
  match digits with
  | 0 => ""
  | d + 1 => hexDigits d (n / 16) ++ String.ofList ["0123456789ABCDEF".toList.getD (n % 16) '0']

/-- A number written `0x..` with the given count of digits (R9). -/
def hexText (digits n : Nat) : String := "0x" ++ hexDigits digits n

/-- A flag written 1 or 0 (R9). -/
def flagText (b : Bool) : String := if b then "1" else "0"

/-- The three bytes of an image, first byte first (R80). -/
def imageText (img : Image) : String :=
  hexDigits 2 (imageByte img 0).toNat ++ " " ++ hexDigits 2 (imageByte img 1).toNat ++ " " ++ hexDigits 2 (imageByte img 2).toNat

/-- The trace line of a request operation, without its response (R80). R80 gives the rows of the transfer table and the static
queries no line of their own. -/
def traceLine (i : Instr) : Option String :=
  match i with
  | .transfer b => some (mnemonic i ++ " " ++ hexText 2 b.toNat)
  | .setButton b p => some (mnemonic i ++ " " ++ buttonName b ++ ", " ++ flagText p)
  | .setButtonCode c p => some (mnemonic i ++ " " ++ toString c.toInt ++ ", " ++ flagText p)
  | .save ok => some (mnemonic i ++ " base_ok=" ++ flagText ok)
  | .load ok img => some (mnemonic i ++ " base_ok=" ++ flagText ok ++ ", image=" ++ imageText img)
  | .setAxis _ _ | .getBits | .reset | .resetTransfer | .getType => some (mnemonic i)
  | .xferPoll | .xferSelect | .xferOther _ | .xferIdMsb _ | .xferBtnLsb _ | .xferBtnMsb _ | .xferIllegal _
  | .getButtonCodeByName _ | .getAxisCodeByName _ | .getButtonNames | .getAxisNames | .getVibMotorCount => none

/-- The response as it stands after `=>` (R80), where the operation has one. -/
def responseText (r : Response) : Option String :=
  match r with
  | .transfer b c => some (hexText 2 b.toNat ++ ", continue=" ++ flagText c)
  | .bits v => some (hexText 4 v.toNat)
  | .saved img => some ("ok=1, image=" ++ imageText img)
  | .saveFailed => some "ok=0"
  | .loadResult ok => some ("ok=" ++ flagText ok)
  | .deviceType _ => some "TYPE_DIGITAL"
  | .absent | .lookup _ | .names _ | .motorCount _ => none

/-- The request encoding of a line: the code and the ports the operation uses (R72, R80). -/
def portText (i : Instr) : Option String :=
  match i with
  | .transfer b => some ("op=0x0 req_byte=" ++ hexText 2 b.toNat)
  | .setButton b p => some ("op=0x1 req_button=" ++ hexText 1 b.code.toNat ++ " req_pressed=" ++ flagText p)
  | .setButtonCode c p => some ("op=0x2 req_code=" ++ hexText 8 c.toNat ++ " req_pressed=" ++ flagText p)
  | .setAxis c v => some ("op=0x3 req_code=" ++ hexText 8 c.toNat ++ " req_axis_value=" ++ hexText 8 v.toNat)
  | .getBits => some "op=0x4"
  | .reset => some "op=0x5"
  | .resetTransfer => some "op=0x6"
  | .save ok => some ("op=0x7 req_base_ok=" ++ flagText ok)
  | .load ok img => some ("op=0x8 req_base_ok=" ++ flagText ok ++ " req_image=" ++ hexText 6 img.toNat)
  | .getType => some "op=0x9"
  | .xferPoll | .xferSelect | .xferOther _ | .xferIdMsb _ | .xferBtnLsb _ | .xferBtnMsb _ | .xferIllegal _
  | .getButtonCodeByName _ | .getAxisCodeByName _ | .getButtonNames | .getAxisNames | .getVibMotorCount => none

end Sys2Proof.Machine
end

