-- ==== Sys2Proof/Tests/Slice0.lean ====
section
/-! SUPPORT. The model's own tests. Expected values are those of 95_test_vectors.md (named by vector) or written out from the
encodings of 30_encoding.md; then one witness for every statement with hypotheses. -/

namespace Sys2Proof.Tests

open Sys2Proof Sys2Proof.Machine

/-- A state with nothing presented and nothing answered. -/
def at' (btn : Half) (ts : Byte) : State := ⟨btn, ts, none, [], .absent⟩

/-- The state an operation leaves in `(btn, ts)` with response `r`. -/
def left (btn : Half) (ts : Byte) (r : Response) : Result := .next ⟨btn, ts, none, [], r⟩

/-- A halted block at `(btn, 7)` with one input to come. -/
def halted7 (btn : Half) (inp : Input) : State := ⟨btn, 7#8, some (.invariantViolation 7#8), [inp], .absent⟩

/-- Two outcomes are the same: outcomes have no decidable equality of their own, so their next states are compared. -/
def sameNext (a b : Result) : Bool :=
  match a, b with
  | .next s, .next t => s == t
  | .fault f, .fault g => f == g
  | .refused e, .refused d => e == d
  | _, _ => false

/-! ### Well-formedness: an ill-formed term for each check -/

theorem test_illFormed_poll : (Instr.xferOther 0x42#8).wellFormed = false := by decide
theorem test_illFormed_select : (Instr.xferOther 0x01#8).wellFormed = false := by decide
theorem test_wellFormed_neighbour : (Instr.xferOther 0x43#8).wellFormed = true := by decide

/-! ### Decoding: words written out from R62, R69 and R72 -/

/-- The request ports of one cycle, as R80 writes them. -/
def req (op : BitVec 4) (byte : Byte) (button : BitVec 4) (code : Code) (pressed : Bool) (axis : BitVec 32) (image : Image)
    (ok : Bool) : Input := .cycle ⟨true, true, op, byte, button, code, pressed, axis, image, ok⟩

theorem test_decode_transfer :
    decode 2#8 (req 0b0000#4 0x42#8 5#4 9#32 true 1#32 7#24 true) = .ok (.transfer 0x42#8) := by decide
theorem test_decode_setButton :
    decode 0#8 (req 0b0001#4 0x42#8 0xE#4 9#32 true 1#32 7#24 false) = .ok (.setButton .cross true) := by decide
theorem test_decode_setButtonCode :
    decode 0#8 (req 0b0010#4 0#8 3#4 0xFFFFFFF3#32 true 1#32 7#24 false) = .ok (.setButtonCode (-13#32) true) := by decide
theorem test_decode_setAxis :
    decode 0#8 (req 0b0011#4 0#8 3#4 5#32 true 6#32 7#24 false) = .ok (.setAxis 5#32 6#32) := by decide
theorem test_decode_getBits : decode 0#8 (req 0b0100#4 1#8 2#4 3#32 true 4#32 5#24 true) = .ok .getBits := by decide
theorem test_decode_reset : decode 0#8 (req 0b0101#4 1#8 2#4 3#32 true 4#32 5#24 true) = .ok .reset := by decide
theorem test_decode_resetTransfer :
    decode 0#8 (req 0b0110#4 1#8 2#4 3#32 true 4#32 5#24 true) = .ok .resetTransfer := by decide
theorem test_decode_save : decode 0#8 (req 0b0111#4 1#8 2#4 3#32 true 4#32 5#24 true) = .ok (.save true) := by decide
theorem test_decode_load :
    decode 0#8 (req 0b1000#4 1#8 2#4 3#32 true 4#32 0x02BFF7#24 true) = .ok (.load true 0x02BFF7#24) := by decide
theorem test_decode_getType : decode 0#8 (req 0b1001#4 1#8 2#4 3#32 true 4#32 5#24 true) = .ok .getType := by decide
theorem test_decode_reserved_low :
    decode 0#8 (req 0b1010#4 1#8 2#4 3#32 true 4#32 5#24 true) = .error (.reservedRequestCode 0xA#4) := by decide
theorem test_decode_reserved_high :
    decode 0#8 (req 0b1111#4 1#8 2#4 3#32 true 4#32 5#24 true) = .error (.reservedRequestCode 0xF#4) := by decide
theorem test_decode_xferPoll : decode 0#8 (.wireByte 0b01000010#8) = .ok .xferPoll := by decide
theorem test_decode_xferSelect : decode 0#8 (.wireByte 0b00000001#8) = .ok .xferSelect := by decide
/-- T2: `0x42` with bit 7 set is a look-alike. -/
theorem test_decode_xferOther : decode 0#8 (.wireByte 0b11000010#8) = .ok (.xferOther 0xC2#8) := by decide
theorem test_decode_xferIdMsb : decode 1#8 (.wireByte 0b01000010#8) = .ok (.xferIdMsb 0x42#8) := by decide
theorem test_decode_xferBtnLsb : decode 2#8 (.wireByte 0b00000001#8) = .ok (.xferBtnLsb 0x01#8) := by decide
theorem test_decode_xferBtnMsb : decode 3#8 (.wireByte 0b11111111#8) = .ok (.xferBtnMsb 0xFF#8) := by decide
theorem test_decode_xferIllegal_smallest : decode 4#8 (.wireByte 0x42#8) = .ok (.xferIllegal 0x42#8) := by decide
theorem test_decode_xferIllegal_largest : decode 255#8 (.wireByte 0x01#8) = .ok (.xferIllegal 0x01#8) := by decide
/-- CONST rows have no encoding (R71): a call names its query. -/
theorem test_decode_queries :
    decode 0#8 (.query (.buttonCodeByName "Cross")) = .ok (.getButtonCodeByName "Cross") ∧
    decode 0#8 (.query (.axisCodeByName "LeftX")) = .ok (.getAxisCodeByName "LeftX") ∧
    decode 0#8 (.query .buttonNames) = .ok .getButtonNames ∧ decode 0#8 (.query .axisNames) = .ok .getAxisNames ∧
    decode 0#8 (.query .vibMotorCount) = .ok .getVibMotorCount := by decide
theorem test_tableWord_transfer : decodeTableWord 8 0x00 = some (.transfer 0#8) := by decide
theorem test_tableWord_reserved : decodeTableWord 8 0x0A = none := by decide
theorem test_fetchWord_poll :
    sameNext (step ((at' 0xBFF7#16 2#8).withFetchWord 8 0x42)) (left 0xBFF7#16 1#8 (.transfer 0x41#8 true)) = true := by decide

/-! ### TRANSFER: T1, F1 -/

theorem test_transfer_poll :
    sameNext (exec (.transfer 0x42#8) (at' 0xBFF7#16 0#8)) (left 0xBFF7#16 1#8 (.transfer 0x41#8 true)) = true := by decide
theorem test_transfer_filler :
    sameNext (exec (.transfer 0x42#8) (at' 0xBFF7#16 1#8)) (left 0xBFF7#16 2#8 (.transfer 0x5A#8 true)) = true := by decide
theorem test_xferPoll :
    sameNext (exec .xferPoll (at' 0xBFF7#16 0#8)) (left 0xBFF7#16 1#8 (.transfer 0x41#8 true)) = true := by decide
theorem test_xferSelect :
    sameNext (exec .xferSelect (at' 0xBFF7#16 0#8)) (left 0xBFF7#16 0#8 (.transfer 0xFF#8 true)) = true := by decide
theorem test_xferOther :
    sameNext (exec (.xferOther 0x99#8) (at' 0xBFF7#16 0#8)) (left 0xBFF7#16 0#8 (.transfer 0xFF#8 false)) = true := by decide
theorem test_xferIdMsb :
    sameNext (exec (.xferIdMsb 0#8) (at' 0xBFF7#16 1#8)) (left 0xBFF7#16 2#8 (.transfer 0x5A#8 true)) = true := by decide
theorem test_xferBtnLsb :
    sameNext (exec (.xferBtnLsb 0#8) (at' 0xBFF7#16 2#8)) (left 0xBFF7#16 3#8 (.transfer 0xF7#8 true)) = true := by decide
theorem test_xferBtnMsb :
    sameNext (exec (.xferBtnMsb 0#8) (at' 0xBFF7#16 3#8)) (left 0xBFF7#16 0#8 (.transfer 0xBF#8 false)) = true := by decide
theorem test_xferIllegal :
    sameNext (exec (.xferIllegal 0x42#8) (at' 0xBFF7#16 7#8)) (.fault (.invariantViolation 7#8)) = true := by decide
theorem test_transfer_largest_corrupt :
    sameNext (exec (.transfer 0x01#8) (at' 0xFFFF#16 255#8)) (.fault (.invariantViolation 255#8)) = true := by decide

/-! ### Button operations: B1, B3, B5, B6 -/

theorem test_setButton_cross :
    sameNext (exec (.setButton .cross true) (at' 0xFFFF#16 2#8)) (left 0xBFFF#16 2#8 .absent) = true := by decide
theorem test_setButton_release :
    sameNext (exec (.setButton .start false) (at' 0xBFF7#16 0#8)) (left 0xBFFF#16 0#8 .absent) = true := by decide
theorem test_setButtonCode_upper :
    sameNext (exec (.setButtonCode 15#32 true) (at' 0xFFFF#16 0#8)) (left 0x7FFF#16 0#8 .absent) = true := by decide
theorem test_setButtonCode_alias :
    sameNext (exec (.setButtonCode 0x00010003#32 true) (at' 0xFFFF#16 0#8)) (left 0xFFFF#16 0#8 .absent) = true := by decide
theorem test_setAxis :
    sameNext (exec (.setAxis 3#32 9#32) (at' 0xBFF7#16 2#8)) (left 0xBFF7#16 2#8 .absent) = true := by decide
theorem test_getBits :
    sameNext (exec .getBits (at' 0x5A41#16 0#8)) (left 0x5A41#16 0#8 (.bits 0xA5BE#16)) = true := by decide

/-! ### Control and persistence: K1 to K6 -/

theorem test_reset : sameNext (exec .reset (at' 0xBFF7#16 7#8)) (left 0xBFF7#16 0#8 .absent) = true := by decide
theorem test_resetTransfer : sameNext (exec .resetTransfer (at' 0x7FEF#16 1#8)) (left 0x7FEF#16 0#8 .absent) = true := by decide
theorem test_save :
    sameNext (exec (.save true) (at' 0xBFF7#16 2#8)) (left 0xBFF7#16 2#8 (.saved 0x02BFF7#24)) = true := by decide
theorem test_save_failed : sameNext (exec (.save false) (at' 0x1234#16 7#8)) (left 0x1234#16 7#8 .saveFailed) = true := by decide
theorem test_load_corrupt :
    sameNext (exec (.load true 0x07FFFF#24) (at' 0xFFFF#16 0#8)) (left 0xFFFF#16 7#8 (.loadResult true)) = true := by decide
theorem test_load_failed :
    sameNext (exec (.load false 0x02BFF7#24) (at' 0xFFFF#16 0#8)) (left 0xFFFF#16 0#8 (.loadResult false)) = true := by decide
theorem test_getType : exec .getType (at' 0#16 0#8) = left 0#16 0#8 (.deviceType Config.typeDigital) := rfl

/-! ### Static queries: K7 -/

theorem test_codeByName_cross :
    sameNext (exec (.getButtonCodeByName "Cross") (at' 0#16 0#8)) (left 0#16 0#8 (.lookup (some 14))) = true := by decide
theorem test_codeByName_case :
    sameNext (exec (.getButtonCodeByName "CROSS") (at' 0#16 0#8)) (left 0#16 0#8 (.lookup none)) = true := by decide
theorem test_axisCodeByName :
    sameNext (exec (.getAxisCodeByName "Cross") (at' 0#16 0#8)) (left 0#16 0#8 (.lookup none)) = true := by decide
theorem test_buttonNames_last : buttonNameTable.getLast? = some ("Square", 15) ∧ buttonNameTable.length = 16 := by decide
theorem test_axisNames : sameNext (exec .getAxisNames (at' 0#16 0#8)) (left 0#16 0#8 (.names [])) = true := by decide
theorem test_vibMotorCount :
    sameNext (exec .getVibMotorCount (at' 0#16 0#8)) (left 0#16 0#8 (.motorCount 0)) = true := by decide

/-! ### The step: Z1, Z2, F3, and the response ports of R74 -/

theorem test_reset_state : State.reset = at' 0xFFFF#16 0#8 := by decide
/-- Z2. -/
theorem test_powerOn_clears_halted :
    sameNext (step (halted7 0x1234#16 (.cycle { requestPorts 0#4 with porN := false }))) (.next (at' 0xFFFF#16 0#8)) = true := by
  decide
/-- F3: the RESET after the fault is not performed. -/
theorem test_halted_reset_not_performed :
    sameNext (step (halted7 0xFFFF#16 (encode .reset)))
      (.next ⟨0xFFFF#16, 7#8, some (.invariantViolation 7#8), [], .absent⟩) = true := by decide
theorem test_step_faults_halt :
    sameNext (step { at' 0xFFFF#16 7#8 with inputs := [encode (.transfer 0#8)] })
      (.next ⟨0xFFFF#16, 7#8, some (.invariantViolation 7#8), [], .absent⟩) = true := by decide
theorem test_ports_absent : (Response.absent).rspByte = none ∧ (Response.saveFailed).rspImage = none ∧
    (Response.saveFailed).rspOk = some false ∧ (Response.transfer 1#8 true).rspContinue = some true := by decide

/-! ### The trace notation: the examples of R80 -/

theorem test_trace_transfer : traceLine (.transfer 0x42#8) = some "TRANSFER 0x42" ∧
    responseText (.transfer 0x41#8 true) = some "0x41, continue=1" := by decide
theorem test_trace_setButton : traceLine (.setButton .cross true) = some "SET_BUTTON Cross, 1" ∧
    traceLine (.setButtonCode 14#32 true) = some "SET_BUTTON_CODE 14, 1" := by decide
theorem test_trace_load : traceLine (.load true 0x02BFF7#24) = some "LOAD base_ok=1, image=F7 BF 02" := by decide
theorem test_trace_ports : portText (.load true 0x02BFF7#24) = some "op=0x8 req_base_ok=1 req_image=0x02BFF7" ∧
    portText (.setButton .cross true) = some "op=0x1 req_button=0xE req_pressed=1" := by decide

/-! ### Witnesses: a state and operands that meet the hypotheses of each statement -/

theorem wit_pollCommand : ∃ s : State, s.ts = Config.tsIdle := ⟨at' 0#16 0#8, rfl⟩
theorem wit_selectByte : ∃ s : State, s.ts = Config.tsIdle := ⟨at' 0xFFFF#16 0#8, rfl⟩
theorem wit_otherByte : ∃ (s : State) (b : Byte), s.ts = Config.tsIdle ∧ b ≠ 0x42#8 ∧ b ≠ 0x01#8 :=
  ⟨at' 0#16 0#8, 0x43#8, rfl, by decide, by decide⟩
theorem wit_idMsb : ∃ s : State, s.ts = Config.tsIdMsb := ⟨at' 0#16 1#8, rfl⟩
theorem wit_buttonsLsb : ∃ s : State, s.ts = Config.tsButtonsLsb := ⟨at' 0#16 2#8, rfl⟩
theorem wit_buttonsMsb : ∃ s : State, s.ts = Config.tsButtonsMsb := ⟨at' 0#16 3#8, rfl⟩
theorem wit_corrupt_smallest : (at' 0#16 4#8).Corrupt := by unfold State.Corrupt; decide
theorem wit_corrupt_largest : (at' 0#16 255#8).Corrupt := by unfold State.Corrupt; decide
theorem wit_code_in_range : (0 ≤ (0#32 : Code).toInt ∧ (0#32 : Code).toInt ≤ 15) ∧
    (0 ≤ (15#32 : Code).toInt ∧ (15#32 : Code).toInt ≤ 15) := by decide
theorem wit_code_is_a_button : (15#32 : Code).toInt = Button.square.code.toNat ∧ (0#32 : Code).toInt = Button.select.code.toNat := by
  decide
theorem wit_code_out_of_range : (-1#32 : Code).toInt < 0 ∧ 15 < (16#32 : Code).toInt := by decide
theorem wit_legal_bounds : (at' 0#16 0#8).Legal ∧ (at' 0#16 3#8).Legal := by unfold State.Legal; decide
theorem wit_selected_fault : (Instr.xferIllegal 0#8).selectedIn (at' 0#16 4#8).ts = true ∧
    (Instr.transfer 0#8).selectedIn (at' 0#16 4#8).ts = true ∧ Instr.xferPoll.selectedIn (at' 0#16 0#8).ts = true := by decide
/-- For each clause on who writes what: an operation that does write. -/
theorem wit_writes : ∃ t u v : State,
    exec (.setButton .up true) (at' 0xFFFF#16 0#8) = .next t ∧ t.btn ≠ 0xFFFF#16 ∧
    exec .xferPoll (at' 0xFFFF#16 0#8) = .next u ∧ u.ts ≠ 0#8 ∧
    exec (.load true 0x021234#24) (at' 0xFFFF#16 0#8) = .next v ∧ v.btn ≠ 0xFFFF#16 ∧ v.ts ≠ 0#8 :=
  ⟨_, _, _, rfl, by decide, rfl, by decide, rfl, by decide, by decide⟩
theorem wit_reads : ∃ t, exec .getBits (at' 0#16 0#8) = .next t := ⟨_, rfl⟩
theorem wit_two_buttons : Button.select ≠ Button.square := by decide
/-- All five kinds, at the end of a code's range and in a corrupt state. -/
theorem wit_idempotent : ∃ t u v : State, exec (.setButtonCode 16#32 true) (at' 0xFFFF#16 7#8) = .next t ∧
    exec .resetTransfer (at' 0xFFFF#16 7#8) = .next u ∧ exec (.load false 0#24) (at' 0xFFFF#16 7#8) = .next v ∧
    ∀ i ∈ [Instr.setButton .square true, .setButtonCode 16#32 true, .reset, .resetTransfer, .load false 0#24],
      (∃ b p, i = .setButton b p) ∨ (∃ c p, i = .setButtonCode c p) ∨ i = .reset ∨ i = .resetTransfer ∨
        ∃ ok img, i = .load ok img := ⟨_, _, _, rfl, rfl, rfl, by simp⟩
theorem wit_wholePoll : ∃ s : State, s.ts = Config.tsIdle := ⟨at' 0x5A41#16 0#8, rfl⟩
/-- From the first data-phase state with all its rows to come, and from the last with none taken. -/
theorem wit_abandoned :
    ((at' 0#16 1#8).ts ≠ Config.tsIdle ∧ (at' 0#16 1#8).ts.toNat + [0x01#8, 0x42#8, 0x00#8].length ≤ 4) ∧
    ((at' 0#16 3#8).ts ≠ Config.tsIdle ∧ (at' 0#16 3#8).ts.toNat + ([] : List Byte).length ≤ 4) := by decide
theorem wit_liveReads : ∃ (s : State) (ops : List Instr), s.ts = Config.tsButtonsLsb ∧ ops ≠ [] ∧
    ∀ i ∈ ops, agentOf i = .inputSource := ⟨at' 0xFFFF#16 2#8, [.setButton .square true], rfl, by decide, by decide⟩
theorem wit_history : ∃ (ops : List Instr) (s s' t : State), s.ts = s'.ts ∧ s.btn ≠ s'.btn ∧ runOps ops s = .next t ∧
    (∃ i ∈ ops, agentOf i = .inputSource) :=
  ⟨[.transfer 0x42#8, .setButton .up true], at' 0#16 0#8, at' 1#16 0#8, _, rfl, by decide, rfl, .setButton .up true,
    by decide, rfl⟩
/-- Equal masks, and a byte list to the transfer state of each clause. -/
theorem wit_freshBlock : ∃ (s : State) (b : Half) (u v w : State), s.btn = b ∧ s.ts ≠ Config.tsIdle ∧
    runOps [.transfer 0x42#8] (s.setTs 0#8) = .next u ∧ u.ts ≠ Config.tsButtonsLsb ∧ u.ts ≠ Config.tsButtonsMsb ∧
    runOps [.transfer 0x42#8, .transfer 0#8] (s.setTs 0#8) = .next v ∧ v.ts = Config.tsButtonsLsb ∧
    runOps [.transfer 0x42#8, .transfer 0#8, .transfer 0#8] (s.setTs 0#8) = .next w ∧ w.ts = Config.tsButtonsMsb :=
  ⟨at' 5#16 3#8, 5#16, _, _, _, rfl, by decide, rfl, by decide, by decide, rfl, rfl, rfl, rfl⟩
theorem wit_reachable : 0 < 4 ∧ 3 < 4 := by decide
/-- A decoded operation that completes, and one that faults. -/
theorem wit_step : ∃ (s s' : State) (t : State) (f : Fault),
    s.inputs = encode .getBits :: [] ∧ s.fault = none ∧ (encode .getBits).resets = false ∧ (encode .getBits).idle = false ∧
    decode s.ts (encode .getBits) = .ok .getBits ∧ exec .getBits { s with inputs := [] } = .next t ∧
    s'.inputs = .wireByte 0#8 :: [] ∧ s'.fault = none ∧ decode s'.ts (.wireByte 0#8) = .ok (.xferIllegal 0#8) ∧
    exec (.xferIllegal 0#8) { s' with inputs := [] } = .fault f :=
  ⟨{ at' 0#16 0#8 with inputs := [encode .getBits] }, { at' 0#16 7#8 with inputs := [.wireByte 0#8] }, _, _,
    rfl, rfl, rfl, rfl, rfl, rfl, rfl, rfl, by decide, rfl⟩
/-- Both clauses: a byte on the wire, and a request. -/
theorem wit_corruptTransfer : ∃ s s' : State, s.inputs = [.wireByte 0x42#8] ∧ s.fault = none ∧ s.Corrupt ∧
    s'.inputs = [encode (.transfer 0x42#8)] ∧ s'.fault = none ∧ s'.Corrupt :=
  ⟨{ at' 0#16 4#8 with inputs := [.wireByte 0x42#8] }, { at' 0#16 255#8 with inputs := [encode (.transfer 0x42#8)] },
    rfl, rfl, wit_corrupt_smallest, rfl, rfl, wit_corrupt_largest⟩
theorem wit_powerOnPin : ∃ (s : State) (p : Ports), s.inputs = [.cycle p] ∧ p.porN = false ∧ s.halted = true :=
  ⟨halted7 0#16 (.cycle { requestPorts 0#4 with porN := false }), _, rfl, rfl, rfl⟩
/-- Both clauses: nothing presented, and a cycle without a request. -/
theorem wit_noRequest : ∃ (s s' : State) (p : Ports), s.inputs = [] ∧ s'.inputs = [.cycle p] ∧ p.porN = true ∧
    p.reqValid = false :=
  ⟨at' 0#16 0#8, { at' 0#16 0#8 with inputs := [.cycle { requestPorts 0#4 with reqValid := false }] }, _, rfl, rfl, rfl, rfl⟩
theorem wit_reserved : ∃ (s : State) (p : Ports), s.inputs = [.cycle p] ∧ s.fault = none ∧ p.porN = true ∧
    p.reqValid = true ∧ 10 ≤ p.reqOp.toNat :=
  ⟨{ at' 0#16 0#8 with inputs := [.cycle (requestPorts 0xA#4)] }, _, rfl, rfl, rfl, rfl, by decide⟩
theorem wit_wireByte : ∃ p : Ports, p.porN = true ∧ p.reqValid = true ∧ p.reqOp = 0#4 := ⟨requestPorts 0#4, rfl, rfl, rfl⟩
/-- A request word and a byte on the wire. -/
theorem wit_tableWord : decodeTableWord 8 5 = some .reset ∧ decodeTableWord 8 0x42 = some .xferPoll := by decide
theorem wit_placed_completes : ∃ t, exec .xferPoll (at' 0#16 0#8) = .next t := ⟨_, rfl⟩
theorem wit_halted : ∃ s : State, s.halted = true ∧ s.inputs ≠ [] ∧ ∀ inp ∈ s.inputs.take 2, inp.resets = false :=
  ⟨halted7 0#16 (encode .reset), rfl, by decide, by decide⟩
theorem wit_safeRun : ∃ s : State, s.SafeRun ∧ s.inputs ≠ [] :=
  ⟨{ at' 0#16 3#8 with inputs := [.wireByte 0#8, encode (.load true 0x03FFFF#24)] },
    ⟨⟨rfl, wit_legal_bounds.2⟩, by decide⟩, by decide⟩
/-- A recorded fault and a step from it. -/
theorem wit_faultRecord : ∃ s t : State, s.FaultRecord ∧ s.fault ≠ none ∧ step s = .next t :=
  ⟨halted7 0#16 (encode .reset), _, fun _ h => ⟨(Option.some.inj h).symm, by unfold State.Corrupt; decide⟩, by decide, rfl⟩
theorem wit_roundTrip : (Instr.xferOther 0x43#8).wellFormed = true ∧ (Instr.xferOther 0x43#8).selectedIn 0#8 = true ∧
    (Instr.xferIllegal 0#8).wellFormed = true ∧ (Instr.xferIllegal 0#8).selectedIn 4#8 = true := by decide
/-- A byte on the wire and a query. -/
theorem wit_decodes : decode 3#8 (.wireByte 0#8) = .ok (.xferBtnMsb 0#8) ∧ decode 3#8 (.query .axisNames) = .ok .getAxisNames := by
  decide
/-- For each request code: two cycles that differ in an operand port the operation does not use and agree on those it does. -/
theorem wit_unusedPorts : ∀ op : BitVec 4,
    let p := requestPorts op
    let q : Ports := if op = 3#4 then { p with reqByte := 1#8 } else { p with reqAxisValue := 1#32 }
    p ≠ q ∧ p.reqOp = q.reqOp ∧ (p.reqOp = 0#4 → p.reqByte = q.reqByte) ∧
    (p.reqOp = 1#4 → p.reqButton = q.reqButton ∧ p.reqPressed = q.reqPressed) ∧
    (p.reqOp = 2#4 → p.reqCode = q.reqCode ∧ p.reqPressed = q.reqPressed) ∧
    (p.reqOp = 3#4 → p.reqCode = q.reqCode ∧ p.reqAxisValue = q.reqAxisValue) ∧
    (p.reqOp = 7#4 → p.reqBaseOk = q.reqBaseOk) ∧
    (p.reqOp = 8#4 → p.reqBaseOk = q.reqBaseOk ∧ p.reqImage = q.reqImage) := by decide

end Sys2Proof.Tests
end

section
/-! PROOFS. The rows of the transfer table (40_transfer.md): what each row does, and that TRANSFER does what the row it
selects does. -/

namespace Sys2Proof.Machine

/-! ### Values -/

/-- The low byte of a word, bit for bit (R10). -/
theorem lo8_eq_extractLsb' (w : Half) : lo8 w = BitVec.extractLsb' 0 8 w :=
  BitVec.setWidth_eq_extractLsb' (by decide)

/-- The high byte of a word, bit for bit (R10). -/
theorem hi8_eq_extractLsb' (w : Half) : hi8 w = BitVec.extractLsb' 8 8 w :=
  BitVec.setWidth_ushiftRight_eq_extractLsb

/-- A write of the value `ts` already holds changes nothing. -/
theorem setTs_of_ts_eq {s : State} {v : Byte} (h : s.ts = v) : s.setTs v = s := by
  subst h; rfl

/-! ### What each row does -/

theorem exec_xferPoll (s : State) :
    exec .xferPoll s = .next { s with ts := Config.tsIdMsb, rsp := .transfer 0x41#8 true } := rfl

/-- In Idle the write of Idle is no change, so that only the response is new (R92). -/
theorem exec_xferSelect {s : State} (h : s.ts = Config.tsIdle) :
    exec .xferSelect s = .next { s with rsp := .transfer 0xFF#8 true } :=
  calc exec .xferSelect s
    _ = .next ((s.setTs Config.tsIdle).respond (.transfer 0xFF#8 true)) := rfl
    _ = .next (s.respond (.transfer 0xFF#8 true)) := by rw [setTs_of_ts_eq h]

/-- In Idle the write of Idle is no change, so that only the response is new (R93). -/
theorem exec_xferOther {s : State} (b : Byte) (h : s.ts = Config.tsIdle) :
    exec (.xferOther b) s = .next { s with rsp := .transfer 0xFF#8 false } :=
  calc exec (.xferOther b) s
    _ = .next ((s.setTs Config.tsIdle).respond (.transfer 0xFF#8 false)) := rfl
    _ = .next (s.respond (.transfer 0xFF#8 false)) := by rw [setTs_of_ts_eq h]

theorem exec_xferIdMsb (b : Byte) (s : State) :
    exec (.xferIdMsb b) s = .next { s with ts := Config.tsButtonsLsb, rsp := .transfer 0x5A#8 true } := rfl

theorem exec_xferBtnLsb (b : Byte) (s : State) : exec (.xferBtnLsb b) s =
    .next { s with ts := Config.tsButtonsMsb, rsp := .transfer (BitVec.extractLsb' 0 8 s.btn) true } := by
  rw [← lo8_eq_extractLsb']; rfl

theorem exec_xferBtnMsb (b : Byte) (s : State) : exec (.xferBtnMsb b) s =
    .next { s with ts := Config.tsIdle, rsp := .transfer (BitVec.extractLsb' 8 8 s.btn) false } := by
  rw [← hi8_eq_extractLsb']; rfl

theorem exec_xferIllegal (b : Byte) (s : State) :
    exec (.xferIllegal b) s = .fault (.invariantViolation s.ts) := rfl

/-! ### TRANSFER does what the row it selects does -/

/-- TRANSFER and the wire decoder test the same conditions in the same order (R69, R90). -/
theorem exec_transfer_eq_exec_decodeTransfer (b : Byte) (s : State) :
    exec (.transfer b) s = exec (decodeTransfer s.ts b) s := by
  change execTransfer b s = _
  unfold execTransfer decodeTransfer
  split_ifs <;> rfl

/-- What the selected row does, TRANSFER does. -/
theorem exec_row_and_exec_transfer {i : Instr} {b : Byte} {s : State} {r : Result} (hsel : decodeTransfer s.ts b = i)
    (hrow : exec i s = r) : exec i s = r ∧ exec (.transfer b) s = r :=
  ⟨hrow, by rw [exec_transfer_eq_exec_decodeTransfer, hsel, hrow]⟩

/-- Settles O1: in Idle the poll command selects XFER.POLL. -/
theorem pollCommandInIdleAnswersIdentityLowByte : Obligations.PollCommandInIdleAnswersIdentityLowByte := by
  intro s h
  have hsel : decodeTransfer s.ts 0x42#8 = .xferPoll := by rw [h]; rfl
  exact exec_row_and_exec_transfer hsel (exec_xferPoll s)

/-- Settles O2: in Idle the select byte selects XFER.SELECT. -/
theorem selectByteInIdleIsAcknowledgedOnly : Obligations.SelectByteInIdleIsAcknowledgedOnly := by
  intro s h
  have hsel : decodeTransfer s.ts 0x01#8 = .xferSelect := by rw [h]; rfl
  exact exec_row_and_exec_transfer hsel (exec_xferSelect h)

/-- Settles O3: in Idle a byte that is neither command selects XFER.OTHER. -/
theorem otherByteInIdleEndsTheTransaction : Obligations.OtherByteInIdleEndsTheTransaction := by
  intro s b h (hpoll : b ≠ Config.cmdPoll) (hselect : b ≠ Config.cmdSelect)
  have hsel : decodeTransfer s.ts b = .xferOther b := by
    rw [h, decodeTransfer_idle, if_neg hpoll, if_neg hselect]
  exact exec_row_and_exec_transfer hsel (exec_xferOther b h)

/-- Settles O4: in IDMSB every byte selects XFER.IDMSB. -/
theorem idMsbAnswersIdentityHighByte : Obligations.IdMsbAnswersIdentityHighByte := by
  intro s b h
  have hsel : decodeTransfer s.ts b = .xferIdMsb b := by rw [h, decodeTransfer_idMsb]
  exact exec_row_and_exec_transfer hsel (exec_xferIdMsb b s)

/-- Settles O5: in ButtonsLSB every byte selects XFER.BTNLSB. -/
theorem buttonsLsbAnswersRawLowByte : Obligations.ButtonsLsbAnswersRawLowByte := by
  intro s b h
  have hsel : decodeTransfer s.ts b = .xferBtnLsb b := by rw [h, decodeTransfer_buttonsLsb]
  exact exec_row_and_exec_transfer hsel (exec_xferBtnLsb b s)

/-- Settles O6: in ButtonsMSB every byte selects XFER.BTNMSB. -/
theorem buttonsMsbAnswersRawHighByteAndReturnsToIdle : Obligations.ButtonsMsbAnswersRawHighByteAndReturnsToIdle := by
  intro s b h
  have hsel : decodeTransfer s.ts b = .xferBtnMsb b := by rw [h, decodeTransfer_buttonsMsb]
  exact exec_row_and_exec_transfer hsel (exec_xferBtnMsb b s)

/-- Settles O7: outside the four codes every byte selects XFER.ILLEGAL. -/
theorem transferInCorruptStateFaults : Obligations.TransferInCorruptStateFaults := by
  intro s b h
  exact exec_row_and_exec_transfer (decodeTransfer_corrupt b h) (exec_xferIllegal b s)

end Sys2Proof.Machine
end

section
/-! PROOFS. The button-state operations (41_button_state.md): what each one leaves, bit by bit. -/

namespace Sys2Proof.Machine

/-! ### Values -/

/-- Each bit of `not16` is the complement of the word's (R10). -/
theorem not16_getLsbD (w : Half) (j : Nat) (hj : j < 16) : (not16 w).getLsbD j = !w.getLsbD j := by
  simp [not16, hj]

/-- A button's own code selects its bit index: it is in range by its width (R65, R121). -/
theorem codeIndex?_of_toInt_eq_code {c : Code} {b : Button} (h : c.toInt = b.code.toNat) :
    codeIndex? c = some b.code.toNat :=
  codeIndex?_eq_some.mpr ⟨h, Nat.le_of_lt_succ b.code.isLt⟩

/-! ### What each operation does -/

theorem exec_setButton (b : Button) (p : Bool) (s : State) :
    exec (.setButton b p) s = .next { s with btn := writeButtonBit s.btn b.code.toNat p, rsp := .absent } := rfl

/-- In range the bit that the code selects is written (R121). -/
theorem exec_setButtonCode_of_some {c : Code} {i : Nat} (p : Bool) (s : State) (h : codeIndex? c = some i) :
    exec (.setButtonCode c p) s = .next { s with btn := writeButtonBit s.btn i p, rsp := .absent } := by
  change execSetButtonCode c p s = _
  rw [execSetButtonCode, h]; rfl

/-- Out of range no register is written (R121). -/
theorem exec_setButtonCode_of_none {c : Code} (p : Bool) (s : State) (h : codeIndex? c = none) :
    exec (.setButtonCode c p) s = .next { s with rsp := .absent } := by
  change execSetButtonCode c p s = _
  rw [execSetButtonCode, h]; rfl

theorem exec_setAxis (c : Code) (v : BitVec 32) (s : State) :
    exec (.setAxis c v) s = .next { s with rsp := .absent } := rfl

theorem exec_getBits (s : State) : exec .getBits s = .next { s with rsp := .bits (not16 s.btn) } := rfl

/-- Settles O8: SET_BUTTON writes the bit of the button's code. -/
theorem setButtonWritesExactlyItsBit : Obligations.SetButtonWritesExactlyItsBit := by
  intro s b p
  exact ⟨_, exec_setButton b p s, fun j hj => writeButtonBit_getLsbD s.btn b.code.toNat j p hj⟩

/-- Settles O9: the code selects a bit index exactly when its signed value is in 0..15. -/
theorem setButtonCodeWritesItsBitOrNothing : Obligations.SetButtonCodeWritesItsBitOrNothing := by
  intro s c p
  refine ⟨fun b hb => ?isSetButton, fun hin => ?inRange, fun hout => ?outOfRange⟩
  case isSetButton =>
    rw [exec_setButtonCode_of_some p s (codeIndex?_of_toInt_eq_code hb), exec_setButton]
  case inRange =>
    obtain ⟨i, hi⟩ := Int.eq_ofNat_of_zero_le hin.1
    have hsel : codeIndex? c = some i := codeIndex?_eq_some.mpr ⟨hi, by omega⟩
    refine ⟨_, exec_setButtonCode_of_some p s hsel, fun j hj => ?_⟩
    simp only [writeButtonBit_getLsbD _ _ _ _ hj, hi, Nat.cast_inj]
  case outOfRange =>
    exact exec_setButtonCode_of_none p s (codeIndex?_eq_none.mpr (by omega))

/-- Settles O10: the view answered is `not16` of `btn`. -/
theorem getBitsAnswersTheComplementOfTheMask : Obligations.GetBitsAnswersTheComplementOfTheMask := by
  intro s
  exact ⟨_, exec_getBits s, not16_getLsbD s.btn⟩

/-- Settles O11: SET_AXIS reads neither operand. -/
theorem setAxisDoesNothing : Obligations.SetAxisDoesNothing := by
  intro s c v
  exact exec_setAxis c v s

end Sys2Proof.Machine
end

section
/-! PROOFS. The resets, the type query and the queries over the empty tables (42_control_and_persistence.md). -/

namespace Sys2Proof.Machine

/-! ### Values -/

/-- No name is in the empty axis-name table (R81). -/
@[simp] theorem lookupName_axisNameTable (name : String) : lookupName axisNameTable name = none := List.lookup_nil

/-! ### What each operation does -/

/-- The effect the two resets share (R152). -/
theorem transferReset_eq (s : State) :
    transferReset s = .next { s with ts := Config.tsIdle, rsp := .absent } := complete_eq _ _

theorem exec_reset (s : State) : exec .reset s = .next { s with ts := Config.tsIdle, rsp := .absent } :=
  transferReset_eq s

theorem exec_resetTransfer (s : State) :
    exec .resetTransfer s = .next { s with ts := Config.tsIdle, rsp := .absent } :=
  transferReset_eq s

theorem exec_getType (s : State) :
    exec .getType s = .next { s with rsp := .deviceType Config.typeDigital } := complete_eq _ _

theorem exec_getAxisCodeByName (name : String) (s : State) :
    exec (.getAxisCodeByName name) s = .next { s with rsp := .lookup none } :=
  calc exec (.getAxisCodeByName name) s
    _ = .next (s.respond (.lookup (lookupName axisNameTable name))) := complete_eq _ _
    _ = .next (s.respond (.lookup none)) := by rw [lookupName_axisNameTable]

theorem exec_getAxisNames (s : State) : exec .getAxisNames s = .next { s with rsp := .names [] } := complete_eq _ _

theorem exec_getVibMotorCount (s : State) :
    exec .getVibMotorCount s = .next { s with rsp := .motorCount 0 } := complete_eq _ _

/-- Settles O12: both resets are the one transfer reset. -/
theorem resetsWriteIdleAndKeepTheButtons : Obligations.ResetsWriteIdleAndKeepTheButtons := by
  intro s
  exact ⟨exec_reset s, exec_resetTransfer s⟩

/-- Settles O15: the type query answers the constant, whatever its value. -/
theorem getTypeAnswersTheDiscriminator : Obligations.GetTypeAnswersTheDiscriminator := by
  intro s
  exact exec_getType s

/-- Settles O17: the table that is searched is empty. -/
theorem axisLookupFindsNothing : Obligations.AxisLookupFindsNothing := by
  intro s name
  exact exec_getAxisCodeByName name s

/-- Settles O19: the table that is listed is empty. -/
theorem axisNamesAreEmpty : Obligations.AxisNamesAreEmpty := by
  intro s
  exact exec_getAxisNames s

/-- Settles O20: the count answered is the constant zero. -/
theorem vibrationMotorCountIsZero : Obligations.VibrationMotorCountIsZero := by
  intro s
  exact exec_getVibMotorCount s

end Sys2Proof.Machine
end

section
/-! PROOFS. The two decoders and the encoder (30_encoding.md): what each request code is read as, and that whatever decodes
is well formed, selected and encoded by its input. -/

namespace Sys2Proof

/-! ### The request layer -/

/-- A request decodes to an operation that has no condition on its operands or on the transfer state (R71, R180). -/
theorem decodeRequest_ok {p : Ports} {i : Instr} (h : decodeRequest p = .ok i) :
    i.wellFormed = true ∧ ∀ ts : Byte, i.selectedIn ts = true := by
  unfold decodeRequest at h
  split at h <;> cases h <;> exact ⟨rfl, fun _ => rfl⟩

/-- A reserved code is rejected by its code (R78). -/
theorem decodeRequest_of_reserved {p : Ports} (h : 10 ≤ p.reqOp.toNat) :
    decodeRequest p = .error (.reservedRequestCode p.reqOp) := by
  unfold decodeRequest
  split
  case h_11 => rfl
  all_goals omega

/-- Code 0 is TRANSFER of the byte port (R72). -/
theorem decodeRequest_of_transfer {p : Ports} (h : p.reqOp = 0#4) : decodeRequest p = .ok (.transfer p.reqByte) := by
  rw [decodeRequest, h]; rfl

/-! ### The wire layer -/

theorem decodeTransfer_wellFormed (ts b : Byte) : (decodeTransfer ts b).wellFormed = true := by
  unfold decodeTransfer
  split_ifs with _ hpoll hselect
  case neg => simp [Instr.wellFormed, hpoll, hselect]
  all_goals rfl

/-- The row a transfer decodes to is one whose condition the transfer state meets (R69). -/
theorem decodeTransfer_selectedIn (ts b : Byte) : (decodeTransfer ts b).selectedIn ts = true := by
  by_cases hcorrupt : Config.nStates ≤ ts.toNat
  · rw [decodeTransfer_corrupt b hcorrupt]
    exact decide_eq_true hcorrupt
  · obtain rfl | rfl | rfl | rfl := legal_ts_cases (Nat.lt_of_not_le hcorrupt)
    · rw [decodeTransfer_idle]
      split_ifs <;> rfl
    all_goals rfl

theorem encode_decodeTransfer (ts b : Byte) : encode (decodeTransfer ts b) = .wireByte b := by
  unfold decodeTransfer
  split_ifs with _ hpoll hselect
  · rw [hpoll]; rfl
  · rw [hselect]; rfl
  all_goals rfl

/-! ### Static queries -/

theorem decodeQuery_wellFormed (q : StaticQuery) : (decodeQuery q).wellFormed = true := by cases q <;> rfl

theorem decodeQuery_selectedIn (q : StaticQuery) (ts : Byte) : (decodeQuery q).selectedIn ts = true := by
  cases q <;> rfl

theorem encode_decodeQuery (q : StaticQuery) : encode (decodeQuery q) = .query q := by cases q <;> rfl

/-- Whatever decodes is selected by the transfer state it was decoded in. -/
theorem selectedIn_of_decode {ts : Byte} {inp : Input} {i : Instr} (h : decode ts inp = .ok i) :
    i.selectedIn ts = true := by
  cases inp with
  | cycle p => exact (decodeRequest_ok h).2 ts
  | wireByte b => cases h; exact decodeTransfer_selectedIn ts b
  | query q => cases h; exact decodeQuery_selectedIn q ts

/-- Whatever decodes is well formed. -/
theorem wellFormed_of_decode {ts : Byte} {inp : Input} {i : Instr} (h : decode ts inp = .ok i) :
    i.wellFormed = true := by
  cases inp with
  | cycle p => exact (decodeRequest_ok h).1
  | wireByte b => cases h; exact decodeTransfer_wellFormed ts b
  | query q => cases h; exact decodeQuery_wellFormed q

/-! ### The statements -/

/-- Settles O48: instruction by instruction, the round trips of Sys2Proof/Laws/PerInstr.lean. -/
theorem decodeOfEncodeIsTheInstruction : Obligations.DecodeOfEncodeIsTheInstruction := by
  intro i ts
  cases i with
  | transfer b => exact Laws.RoundTrip.transfer b ts
  | setButton b p => exact Laws.RoundTrip.setButton b p ts
  | setButtonCode c p => exact Laws.RoundTrip.setButtonCode c p ts
  | setAxis c v => exact Laws.RoundTrip.setAxis c v ts
  | getBits => exact Laws.RoundTrip.getBits ts
  | reset => exact Laws.RoundTrip.reset ts
  | resetTransfer => exact Laws.RoundTrip.resetTransfer ts
  | save ok => exact Laws.RoundTrip.save ok ts
  | load ok img => exact Laws.RoundTrip.load ok img ts
  | getType => exact Laws.RoundTrip.getType ts
  | xferPoll => exact Laws.RoundTrip.xferPoll ts
  | xferSelect => exact Laws.RoundTrip.xferSelect ts
  | xferOther b => exact Laws.RoundTrip.xferOther b ts
  | xferIdMsb b => exact Laws.RoundTrip.xferIdMsb b ts
  | xferBtnLsb b => exact Laws.RoundTrip.xferBtnLsb b ts
  | xferBtnMsb b => exact Laws.RoundTrip.xferBtnMsb b ts
  | xferIllegal b => exact Laws.RoundTrip.xferIllegal b ts
  | getButtonCodeByName n => exact Laws.RoundTrip.getButtonCodeByName n ts
  | getAxisCodeByName n => exact Laws.RoundTrip.getAxisCodeByName n ts
  | getButtonNames => exact Laws.RoundTrip.getButtonNames ts
  | getAxisNames => exact Laws.RoundTrip.getAxisNames ts
  | getVibMotorCount => exact Laws.RoundTrip.getVibMotorCount ts

/-- Settles O49: a byte and a query are recovered from the row and the instruction they decode to. -/
theorem decodedInstructionIsWellFormedAndSelected : Obligations.DecodedInstructionIsWellFormedAndSelected := by
  intro ts inp i h
  refine ⟨wellFormed_of_decode h, selectedIn_of_decode h, ?_, ?_⟩
  · rintro b rfl
    cases h
    exact encode_decodeTransfer ts b
  · rintro q rfl
    cases h
    exact encode_decodeQuery q

/-- Settles O50: the cycles are compared code by code, each on the ports that its code reads. -/
theorem unusedOperandPortsAreIgnored : Obligations.UnusedOperandPortsAreIgnored := by
  intro p q hop htransfer hsetButton hsetButtonCode hsetAxis hsave hload
  have hcode {k : Nat} (h : p.reqOp.toNat = k) : p.reqOp = BitVec.ofNat 4 k := by
    rw [← h, BitVec.ofNat_toNat, BitVec.setWidth_eq]
  unfold decodeRequest
  rw [← hop]
  split
  case h_1 h => rw [htransfer (hcode h)]
  case h_2 h => rw [(hsetButton (hcode h)).1, (hsetButton (hcode h)).2]
  case h_3 h => rw [(hsetButtonCode (hcode h)).1, (hsetButtonCode (hcode h)).2]
  case h_4 h => rw [(hsetAxis (hcode h)).1, (hsetAxis (hcode h)).2]
  case h_8 h => rw [hsave (hcode h)]
  case h_9 h => rw [(hload (hcode h)).1, (hload (hcode h)).2]
  all_goals rfl

/-- Settles O47: each word is decoded. -/
theorem wordsDecodeToTheirInstructions : Obligations.WordsDecodeToTheirInstructions := by
  unfold Obligations.WordsDecodeToTheirInstructions
  decide

end Sys2Proof
end

section
/-! PROOFS. Persistence and the button-name table (42_control_and_persistence.md). -/

namespace Sys2Proof.Machine

/-! ### Persistence -/

theorem exec_save_true (s : State) :
    exec (.save true) s = .next { s with rsp := .saved (packImage s.ts s.btn) } := complete_eq _ _

theorem exec_save_false (s : State) : exec (.save false) s = .next { s with rsp := .saveFailed } := complete_eq _ _

theorem exec_load_true (img : Image) (s : State) : exec (.load true img) s =
    .next { s with btn := imageBtn img, ts := imageTs img, rsp := .loadResult true } := complete_eq _ _

theorem exec_load_false (img : Image) (s : State) :
    exec (.load false img) s = .next { s with rsp := .loadResult false } := complete_eq _ _

/-- Settles O13: the image answered is the packed one, which unpacks to the two registers. -/
theorem saveAnswersBothRegisters : Obligations.SaveAnswersBothRegisters := by
  intro s
  have hbtn : imageBtn (packImage s.ts s.btn) = s.btn := imageBtn_packImage s.ts s.btn
  have hts : imageTs (packImage s.ts s.btn) = s.ts := imageTs_packImage s.ts s.btn
  exact ⟨⟨packImage s.ts s.btn, exec_save_true s, hbtn, hts⟩, exec_save_false s⟩

/-- Settles O14: the two outcomes of the base step. -/
theorem loadRestoresBothRegistersOrNothing : Obligations.LoadRestoresBothRegistersOrNothing := by
  intro s img
  exact ⟨exec_load_true img s, exec_load_false img s⟩

/-- Settles O31: what is loaded is the packed image, which unpacks to the registers it was packed from. -/
theorem loadOfASavedImageRestoresTheState : Obligations.LoadOfASavedImageRestoresTheState := by
  intro s
  refine ⟨packImage s.ts s.btn, exec_save_true s, fun m => ?_⟩
  rw [exec_load_true, imageBtn_packImage, imageTs_packImage]

/-! ### The button-name table -/

/-- In a table that lists no name twice, a lookup finds exactly the listed pairs (R81). -/
theorem lookupName_eq_some_iff_mem {table : List (String × Nat)} (hnodup : (table.map Prod.fst).Nodup)
    (name : String) (c : Nat) : lookupName table name = some c ↔ (name, c) ∈ table := by
  unfold lookupName
  induction table with
  | nil => simp
  | cons entry rest ih =>
    obtain ⟨n, d⟩ := entry
    obtain ⟨hnotin, hrest⟩ : n ∉ rest.map Prod.fst ∧ (rest.map Prod.fst).Nodup := List.nodup_cons.mp hnodup
    rcases eq_or_ne name n with rfl | hne
    · have habsent : (name, c) ∉ rest := fun hmem => hnotin (List.mem_map_of_mem hmem)
      simp [habsent, eq_comm]
    · have hbeq : (name == n) = false := beq_eq_false_iff_ne.mpr hne
      simp [List.lookup_cons, hbeq, hne, ih hrest]

/-- The table, written out (R81, decision D13). -/
theorem buttonNameTable_eq : buttonNameTable =
    [("Select", 0), ("L3", 1), ("R3", 2), ("Start", 3), ("Up", 4), ("Right", 5), ("Down", 6), ("Left", 7),
      ("L2", 8), ("R2", 9), ("L1", 10), ("R1", 11), ("Triangle", 12), ("Circle", 13), ("Cross", 14), ("Square", 15)] := rfl

/-- No two buttons share a name (R81). -/
theorem buttonNameTable_names_nodup : (buttonNameTable.map Prod.fst).Nodup := by decide

theorem exec_getButtonCodeByName (name : String) (s : State) : exec (.getButtonCodeByName name) s =
    .next { s with rsp := .lookup (lookupName buttonNameTable name) } := complete_eq _ _

theorem exec_getButtonNames (s : State) :
    exec .getButtonNames s = .next { s with rsp := .names buttonNameTable } := complete_eq _ _

/-- Settles O16: the names of the table are distinct, so the lookup finds exactly its pairs. -/
theorem buttonLookupFindsExactlyTheSixteenNames : Obligations.ButtonLookupFindsExactlyTheSixteenNames := by
  intro s name
  refine ⟨_, exec_getButtonCodeByName name s, fun c => ?_⟩
  rw [lookupName_eq_some_iff_mem buttonNameTable_names_nodup, buttonNameTable_eq]

/-- Settles O18: the table that is listed holds the sixteen pairs. -/
theorem buttonNamesAreTheSixteenPairs : Obligations.ButtonNamesAreTheSixteenPairs := by
  intro s
  rw [exec_getButtonNames, buttonNameTable_eq]
  rfl

end Sys2Proof.Machine
end

section
/-! PROOFS. What holds of all operations: the one response function of a legal transfer, who faults, who writes and who
reads which register, and what the operations of the input source leave alone. -/

namespace Sys2Proof.Machine

/-! ### A transfer in a legal state -/

/-- The transfer state after a transfer in a legal state (column next of R69). -/
def nextTs (ts b : Byte) : Byte :=
  if ts = Config.tsIdle then if b = Config.cmdPoll then Config.tsIdMsb else Config.tsIdle
  else if ts = Config.tsIdMsb then Config.tsButtonsLsb
  else if ts = Config.tsButtonsLsb then Config.tsButtonsMsb
  else Config.tsIdle

/-- The state after a transfer in a legal state, as functions of `(ts, in, btn)` (R98, R30). -/
def State.afterTransfer (s : State) (b : Byte) : State :=
  { s with ts := nextTs s.ts b, rsp := .transfer (serializer s.ts b s.btn) (continueFlag s.ts b) }

@[simp] theorem afterTransfer_btn (s : State) (b : Byte) : (s.afterTransfer b).btn = s.btn := rfl
@[simp] theorem afterTransfer_ts (s : State) (b : Byte) : (s.afterTransfer b).ts = nextTs s.ts b := rfl
@[simp] theorem afterTransfer_rsp (s : State) (b : Byte) :
    (s.afterTransfer b).rsp = .transfer (serializer s.ts b s.btn) (continueFlag s.ts b) := rfl

/-- The serializer datapath and the continuation flag do in a legal state what the rows say (R98, R30). -/
theorem exec_transfer_of_legal {s : State} (b : Byte) (h : s.Legal) :
    exec (.transfer b) s = .next (s.afterTransfer b) := by
  obtain ⟨btn, ts, fault, inputs, rsp⟩ := s
  obtain rfl | rfl | rfl | rfl := legal_ts_cases (ts := ts) h
  · rw [exec_transfer_eq_exec_decodeTransfer, decodeTransfer_idle]
    by_cases hpoll : b = Config.cmdPoll
    · subst hpoll; rfl
    · by_cases hselect : b = Config.cmdSelect
      · subst hselect; rfl
      · simp only [State.afterTransfer, nextTs, serializer, continueFlag, hpoll, hselect, if_true, if_false, ne_eq,
          not_false_eq_true, and_self, or_self, decide_false]
        rfl
  all_goals rfl

theorem exec_transfer_of_corrupt {s : State} (b : Byte) (h : s.Corrupt) :
    exec (.transfer b) s = .fault (.invariantViolation s.ts) := (transferInCorruptStateFaults s b h).2

/-- A legal transfer leaves a legal transfer state (R33). -/
theorem afterTransfer_legal (s : State) (b : Byte) : (s.afterTransfer b).Legal := by
  rw [State.Legal, afterTransfer_ts, nextTs]
  split_ifs <;> decide

/-- Outside the two button rows the serializer does not read the mask (R98). -/
theorem serializer_eq_of_not_button_row {ts : Byte} (b : Byte) (v w : Half) (hlsb : ts ≠ Config.tsButtonsLsb)
    (hmsb : ts ≠ Config.tsButtonsMsb) (hts : ts.toNat < Config.nStates) : serializer ts b v = serializer ts b w := by
  obtain rfl | rfl | rfl | rfl := legal_ts_cases hts
  · by_cases hpoll : b = Config.cmdPoll <;> simp [serializer, hpoll]
  · rfl
  · exact absurd rfl hlsb
  · exact absurd rfl hmsb

/-- Settles O21: TRANSFER tests the decoder's conditions in the decoder's order. -/
theorem transferRunsTheRowTheTableSelects : Obligations.TransferRunsTheRowTheTableSelects := by
  intro s b
  exact ⟨exec_transfer_eq_exec_decodeTransfer b s, decodeTransfer_wellFormed s.ts b, decodeTransfer_selectedIn s.ts b⟩

/-- Settles O22: the next transfer state is `nextTs`. -/
theorem serializerFormsEveryLegalResponse : Obligations.SerializerFormsEveryLegalResponse := by
  intro s b h
  exact ⟨nextTs s.ts b, exec_transfer_of_legal b h⟩

/-! ### Who faults -/

/-- Every operation but TRANSFER and XFER.ILLEGAL completes in every state. -/
theorem exec_completes {i : Instr} (s : State) (htransfer : ∀ b, i ≠ .transfer b) (hillegal : ∀ b, i ≠ .xferIllegal b) :
    ∃ t, exec i s = .next t := by
  cases i with
  | transfer b => exact absurd rfl (htransfer b)
  | xferIllegal b => exact absurd rfl (hillegal b)
  | setButtonCode c p =>
    cases h : codeIndex? c with
    | none => exact ⟨_, exec_setButtonCode_of_none p s h⟩
    | some k => exact ⟨_, exec_setButtonCode_of_some p s h⟩
  | save ok => cases ok <;> exact ⟨_, rfl⟩
  | load ok img => cases ok <;> exact ⟨_, rfl⟩
  | _ => exact ⟨_, rfl⟩

/-- Everything a selected operation can do: it completes, or it is a transfer that a corrupt state stops. -/
theorem exec_cases {i : Instr} {s : State} (hsel : i.selectedIn s.ts = true) :
    (∃ t, exec i s = .next t ∧ ¬(s.Corrupt ∧ ∃ b, i = .transfer b ∨ i = .xferIllegal b)) ∨
    (exec i s = .fault (.invariantViolation s.ts) ∧ s.Corrupt ∧ ∃ b, i = .transfer b ∨ i = .xferIllegal b) := by
  by_cases hxfer : ∃ b, i = .transfer b ∨ i = .xferIllegal b
  · obtain ⟨b, rfl | rfl⟩ := id hxfer
    · by_cases hc : s.Corrupt
      · exact .inr ⟨exec_transfer_of_corrupt b hc, hc, hxfer⟩
      · exact .inl ⟨_, exec_transfer_of_legal b ((legal_iff_not_corrupt s).mpr hc), fun h => hc h.1⟩
    · have hc : Config.nStates ≤ s.ts.toNat := of_decide_eq_true hsel
      exact .inr ⟨exec_xferIllegal b s, hc, hxfer⟩
  · obtain ⟨t, ht⟩ := exec_completes s (fun b h => hxfer ⟨b, .inl h⟩) (fun b h => hxfer ⟨b, .inr h⟩)
    exact .inl ⟨t, ht, fun h => hxfer h.2⟩

/-- Settles O23: a selected operation completes, or it is a transfer that a corrupt state stops. -/
theorem onlyTransfersInCorruptStatesFault : Obligations.OnlyTransfersInCorruptStatesFault := by
  intro i s hsel
  obtain ⟨t, ht, hno⟩ | ⟨hf, hyes⟩ := exec_cases hsel
  · simp [ht, hno]
  · simp [hf, hyes, eq_comm]

/-! ### Who writes which register -/

/-- A transfer that completes was in a legal state. -/
theorem legal_of_exec_transfer {b : Byte} {s t : State} (h : exec (.transfer b) s = .next t) : s.Legal := by
  rw [legal_iff_not_corrupt]
  intro hc
  rw [exec_transfer_of_corrupt b hc] at h
  cases h

theorem exec_transfer_btn {b : Byte} {s t : State} (h : exec (.transfer b) s = .next t) : t.btn = s.btn := by
  rw [exec_transfer_of_legal b (legal_of_exec_transfer h)] at h
  cases h; rfl

/-- Where `btn` is written (R22). -/
theorem writer_of_btn_ne {i : Instr} {s t : State} (h : exec i s = .next t) (hne : t.btn ≠ s.btn) :
    (∃ b p, i = .setButton b p) ∨ (∃ c p, i = .setButtonCode c p) ∨ ∃ img, i = .load true img := by
  cases i with
  | setButton b p => exact .inl ⟨b, p, rfl⟩
  | setButtonCode c p => exact .inr (.inl ⟨c, p, rfl⟩)
  | load ok img =>
    cases ok with
    | true => exact .inr (.inr ⟨img, rfl⟩)
    | false => cases h; exact absurd rfl hne
  | transfer b => exact absurd (exec_transfer_btn h) hne
  | save ok => cases ok <;> cases h <;> exact absurd rfl hne
  | _ => cases h <;> exact absurd rfl hne

/-- An operation of the input source completes, leaves `ts` alone and gives no continuation flag (R6, R63). -/
theorem exec_inputSource {i : Instr} (hi : agentOf i = .inputSource) (s : State) :
    ∃ t, exec i s = .next t ∧ t.ts = s.ts ∧ t.rsp.rspContinue = none := by
  cases i with
  | setButtonCode c p =>
    cases h : codeIndex? c with
    | none => exact ⟨_, exec_setButtonCode_of_none p s h, rfl, rfl⟩
    | some k => exact ⟨_, exec_setButtonCode_of_some p s h, rfl, rfl⟩
  | setButton | setAxis | getBits => exact ⟨_, rfl, rfl, rfl⟩
  | _ => cases hi

/-- Where `ts` is written (R25). -/
theorem writer_of_ts_ne {i : Instr} {s t : State} (h : exec i s = .next t) (hne : t.ts ≠ s.ts) :
    agentOf i = .hostBus ∨ ∃ img, i = .load true img := by
  cases hagent : agentOf i with
  | hostBus => exact .inl rfl
  | inputSource =>
    obtain ⟨u, hu, hts, -⟩ := exec_inputSource hagent s
    rw [hu] at h
    cases h
    exact absurd hts hne
  | persist =>
    cases i with
    | load ok img =>
      cases ok with
      | true => exact .inr ⟨img, rfl⟩
      | false => cases h; exact absurd rfl hne
    | save ok => cases ok <;> cases h <;> exact absurd rfl hne
    | _ => cases hagent
  | config => cases i <;> cases hagent <;> cases h <;> exact absurd rfl hne

/-- Settles O24: the writers of the two registers, and the frame of Sys2Proof/Laws/Ops.lean. -/
theorem operationsWriteOnlyTheirRegisters : Obligations.OperationsWriteOnlyTheirRegisters := by
  intro i s t h
  obtain ⟨hfault, hinputs⟩ := exec_keepsEnvironment i s t h
  exact ⟨hfault, hinputs, writer_of_btn_ne h, writer_of_ts_ne h⟩

/-! ### Who reads `btn` -/

/-- The two outcomes agree in what the host bus driver sees of the framing: both stop, or both complete with one transfer
state and one continuation flag (R30). -/
def SameFraming (r r' : Result) : Prop :=
  (∃ t t', r = .next t ∧ r' = .next t' ∧ t'.ts = t.ts ∧ t'.rsp.rspContinue = t.rsp.rspContinue) ∨
  ∃ f f', r = .fault f ∧ r' = .fault f'

/-- Two completions of one continuation flag `c`, or of none, that leave one transfer state. -/
theorem sameFraming_complete {u u' : State} {r r' : Response} (c : Option Bool) (hts : u'.ts = u.ts)
    (hr : r.rspContinue = c) (hr' : r'.rspContinue = c) : SameFraming (complete u r) (complete u' r') :=
  .inl ⟨_, _, complete_eq u r, complete_eq u' r', hts, hr'.trans hr.symm⟩

/-- The framing of an operation is a function of `ts` alone (R30, R105). -/
theorem exec_sameFraming (i : Instr) {s s' : State} (h : s.ts = s'.ts) : SameFraming (exec i s) (exec i s') := by
  cases i with
  | transfer b =>
    by_cases hc : s.Corrupt
    · have hc' : s'.Corrupt := by rwa [State.Corrupt, ← h]
      exact .inr ⟨_, _, exec_transfer_of_corrupt b hc, exec_transfer_of_corrupt b hc'⟩
    · have hl : s.Legal := (legal_iff_not_corrupt s).mpr hc
      have hl' : s'.Legal := by rwa [State.Legal, ← h]
      refine .inl ⟨_, _, exec_transfer_of_legal b hl, exec_transfer_of_legal b hl', ?_, ?_⟩
      · simp only [afterTransfer_ts, h]
      · simp only [afterTransfer_rsp, h, Response.rspContinue]
  | xferIllegal b => exact .inr ⟨_, _, rfl, rfl⟩
  | setButtonCode c p =>
    obtain ⟨t, ht, hts, hcont⟩ := exec_inputSource (i := .setButtonCode c p) rfl s
    obtain ⟨t', ht', hts', hcont'⟩ := exec_inputSource (i := .setButtonCode c p) rfl s'
    exact .inl ⟨t, t', ht, ht', by rw [hts, hts', h], by rw [hcont, hcont']⟩
  | save ok => cases ok <;> exact sameFraming_complete none h.symm rfl rfl
  | load ok img =>
    cases ok with
    | true => exact sameFraming_complete none rfl rfl rfl
    | false => exact sameFraming_complete none h.symm rfl rfl
  | reset | resetTransfer => exact sameFraming_complete none rfl rfl rfl
  | xferPoll | xferSelect | xferIdMsb | xferBtnLsb => exact sameFraming_complete (some true) rfl rfl rfl
  | xferOther | xferBtnMsb => exact sameFraming_complete (some false) rfl rfl rfl
  | _ => exact sameFraming_complete none h.symm rfl rfl

/-- Where the response depends on `btn` (R22). -/
theorem reader_of_btn {i : Instr} {s t t' : State} {v : Half} (h : exec i s = .next t)
    (h' : exec i { s with btn := v } = .next t') :
    t'.rsp = t.rsp ∨ i = .getBits ∨ i = .save true ∨ (∃ b, i = .xferBtnLsb b ∨ i = .xferBtnMsb b) ∨
      ∃ b, i = .transfer b ∧ (s.ts = Config.tsButtonsLsb ∨ s.ts = Config.tsButtonsMsb) := by
  cases i with
  | getBits => exact .inr (.inl rfl)
  | save ok =>
    cases ok with
    | true => exact .inr (.inr (.inl rfl))
    | false => cases h; cases h'; exact .inl rfl
  | xferBtnLsb b => exact .inr (.inr (.inr (.inl ⟨b, .inl rfl⟩)))
  | xferBtnMsb b => exact .inr (.inr (.inr (.inl ⟨b, .inr rfl⟩)))
  | transfer b =>
    by_cases hrow : s.ts = Config.tsButtonsLsb ∨ s.ts = Config.tsButtonsMsb
    · exact .inr (.inr (.inr (.inr ⟨b, rfl, hrow⟩)))
    · rw [not_or] at hrow
      have hl : s.Legal := legal_of_exec_transfer h
      have hl' : State.Legal { s with btn := v } := hl
      rw [exec_transfer_of_legal b hl] at h
      rw [exec_transfer_of_legal b hl'] at h'
      cases h; cases h'
      exact .inl (by simp only [afterTransfer_rsp, serializer_eq_of_not_button_row b v s.btn hrow.1 hrow.2 hl])
  | setButtonCode c p =>
    cases hc : codeIndex? c with
    | none =>
      rw [exec_setButtonCode_of_none p _ hc] at h h'
      cases h; cases h'; exact .inl rfl
    | some k =>
      rw [exec_setButtonCode_of_some p _ hc] at h h'
      cases h; cases h'; exact .inl rfl
  | load ok img => cases ok <;> cases h <;> cases h' <;> exact .inl rfl
  | _ => cases h <;> cases h' <;> exact .inl rfl

/-- Settles O25: the framing is a function of `ts`, and the readers of `btn` are the listed ones. -/
theorem buttonsAreReadOnlyWhereListed : Obligations.ButtonsAreReadOnlyWhereListed := by
  intro i s t v h
  obtain ⟨u, t', hu, ht', hts, -⟩ | ⟨f, f', hf, -⟩ := exec_sameFraming i (s := s) (s' := { s with btn := v }) rfl
  · rw [h] at hu
    cases hu
    exact ⟨t', ht', hts, reader_of_btn h ht'⟩
  · rw [h] at hf
    cases hf

/-! ### Setters, resets and LOAD twice -/

theorem code_injective : Function.Injective Button.code := Function.LeftInverse.injective ofCode_code

/-- Of two writes of one bit the later one counts. -/
theorem writeButtonBit_writeButtonBit (w : Half) (i : Nat) (p q : Bool) :
    writeButtonBit (writeButtonBit w i p) i q = writeButtonBit w i q := by
  refine BitVec.eq_of_getLsbD_eq fun j hj => ?_
  simp only [writeButtonBit_getLsbD _ _ _ _ hj]
  split_ifs <;> rfl

/-- Writes of two bits commute. -/
theorem writeButtonBit_comm (w : Half) {i k : Nat} (hne : i ≠ k) (p q : Bool) :
    writeButtonBit (writeButtonBit w i p) k q = writeButtonBit (writeButtonBit w k q) i p := by
  refine BitVec.eq_of_getLsbD_eq fun j hj => ?_
  simp only [writeButtonBit_getLsbD _ _ _ _ hj]
  split_ifs with hk hi
  · exact absurd (hi.symm.trans hk) hne
  all_goals rfl

/-- Two setters leave the two bits written one after the other. -/
theorem runOps_setButton_setButton (s : State) (a b : Button) (p q : Bool) :
    runOps [.setButton a p, .setButton b q] s = .next
      { s with btn := writeButtonBit (writeButtonBit s.btn a.code.toNat p) b.code.toNat q, rsp := .absent } := rfl

/-- Settles O26: bit by bit, through the two laws of the bit write. -/
theorem settersAndReaderAgree : Obligations.SettersAndReaderAgree := by
  intro s a b p q
  refine ⟨?reader, fun hab => ?commute, ?later⟩
  case reader =>
    refine ⟨not16 (writeButtonBit s.btn a.code.toNat p), _, rfl, rfl, ?_⟩
    rw [not16_getLsbD _ _ a.code.isLt, writeButtonBit_getLsbD _ _ _ _ a.code.isLt, if_pos rfl, Bool.not_not]
  case commute =>
    have hcode : a.code.toNat ≠ b.code.toNat := fun h => hab (code_injective (BitVec.eq_of_toNat_eq h))
    rw [runOps_setButton_setButton, runOps_setButton_setButton, writeButtonBit_comm s.btn hcode]
  case later =>
    rw [runOps_setButton_setButton, writeButtonBit_writeButtonBit]
    rfl

/-- Settles O27: a bit write repeated is one bit write, and the other operations write constants. -/
theorem writingOperationsAreIdempotent : Obligations.WritingOperationsAreIdempotent := by
  rintro s i (⟨b, p, rfl⟩ | ⟨c, p, rfl⟩ | rfl | rfl | ⟨ok, img, rfl⟩)
  · exact ⟨_, exec_setButton b p s, by rw [exec_setButton, writeButtonBit_writeButtonBit]⟩
  · cases hc : codeIndex? c with
    | none => exact ⟨_, exec_setButtonCode_of_none p s hc, by rw [exec_setButtonCode_of_none p _ hc]⟩
    | some k =>
      exact ⟨_, exec_setButtonCode_of_some p s hc,
        by rw [exec_setButtonCode_of_some p _ hc, writeButtonBit_writeButtonBit]⟩
  · exact ⟨_, exec_reset s, by rw [exec_reset]⟩
  · exact ⟨_, exec_resetTransfer s, by rw [exec_resetTransfer]⟩
  · cases ok with
    | true => exact ⟨_, exec_load_true img s, by rw [exec_load_true]⟩
    | false => exact ⟨_, exec_load_false img s, by rw [exec_load_false]⟩

end Sys2Proof.Machine
end

section
/-! PROOFS. The step of the clocked binding (R73 to R75, R175, R190): what it does with each kind of input, the halted block,
and the two invariants. -/

namespace Sys2Proof.Machine

/-! ### What a step does -/

/-- The output `halted` is low exactly when no fault is kept (R74). -/
theorem halted_eq_false_iff {s : State} : s.halted = false ↔ s.fault = none :=
  Option.isSome_eq_false_iff.trans Option.isNone_iff_eq_none

theorem step_of_no_input {s : State} (h : s.inputs = []) : step s = .next s.noRequest := by
  rw [step, takeInput, h]

theorem step_of_input {s : State} {inp : Input} {rest : List Input} (h : s.inputs = inp :: rest) :
    step s = performInput inp (s.setInputs rest) := by
  rw [step, takeInput, h]

/-- The power-on reset overrides everything else (R190). -/
theorem performInput_of_resets {inp : Input} (s : State) (h : inp.resets = true) :
    performInput inp s = .next s.powerOnReset := by
  rw [performInput, if_pos h]

/-- Halted, or without a request, nothing is performed (R75, R175). -/
theorem performInput_of_not_performed {inp : Input} {s : State} (hr : inp.resets = false)
    (h : s.halted = true ∨ inp.idle = true) : performInput inp s = .next s.noRequest := by
  have hskip : (s.halted || inp.idle) = true := by simpa using h
  rw [performInput, if_neg (by simp [hr]), if_pos hskip]

/-- Otherwise the one operation the input names is performed (R75). -/
theorem performInput_of_decode_ok {inp : Input} {s : State} {i : Instr} (hr : inp.resets = false)
    (hh : s.halted = false) (hi : inp.idle = false) (hd : decode s.ts inp = .ok i) :
    performInput inp s = latchFault s (exec i s) := by
  rw [performInput, if_neg (by simp [hr]), if_neg (by simp [hh, hi]), hd]

/-- An input that is rejected is refused (R78). -/
theorem performInput_of_decode_error {inp : Input} {s : State} {e : Reject} (hr : inp.resets = false)
    (hh : s.halted = false) (hi : inp.idle = false) (hd : decode s.ts inp = .error e) :
    performInput inp s = refuse e := by
  rw [performInput, if_neg (by simp [hr]), if_neg (by simp [hh, hi]), hd]

/-- A step whose input is performed is the operation, its fault latched. -/
theorem step_of_decode_ok {s : State} {inp : Input} {rest : List Input} {i : Instr} (h : s.inputs = inp :: rest)
    (hf : s.fault = none) (hr : inp.resets = false) (hi : inp.idle = false) (hd : decode s.ts inp = .ok i) :
    step s = latchFault (s.setInputs rest) (exec i (s.setInputs rest)) := by
  rw [step_of_input h]
  exact performInput_of_decode_ok hr (halted_eq_false_iff.mpr hf) hi hd

/-! ### The statements on one step -/

/-- Settles O35: the fields of the power-on state. -/
theorem resetStateIsThePowerOnState : Obligations.ResetStateIsThePowerOnState :=
  ⟨powerOn_btn _ _, powerOn_ts _ _, halted_eq_false_iff.mpr (powerOn_fault _ _), powerOn_inputs _ _, powerOn_rsp _ _⟩

/-- Settles O36: the step latches the outcome of the operation. -/
theorem stepPerformsTheDecodedInstruction : Obligations.StepPerformsTheDecodedInstruction := by
  intro s inp rest i h hf hr hi hd
  have hstep := step_of_decode_ok h hf hr hi hd
  refine ⟨fun t ht => ?_, fun f hfault => ?_, fun r href => ?_⟩
  · rw [hstep, State.setInputs, ht]; rfl
  · rw [hstep, State.setInputs, hfault]; rfl
  · rw [hstep, State.setInputs, href]; rfl

/-- Settles O37: as a byte or as a request, the transfer faults, and the fault is latched. -/
theorem corruptTransferHaltsTheBlock : Obligations.CorruptTransferHaltsTheBlock := by
  rintro s inp rest b h hf hc (rfl | rfl)
  · have hd : decode s.ts (.wireByte b) = .ok (.xferIllegal b) := congrArg Except.ok (decodeTransfer_corrupt b hc)
    exact (stepPerformsTheDecodedInstruction s _ rest _ h hf rfl rfl hd).2.1 _ (exec_xferIllegal b _)
  · have hc' : State.Corrupt { s with inputs := rest } := hc
    exact (stepPerformsTheDecodedInstruction s _ rest _ h hf rfl rfl rfl).2.1 _ (exec_transfer_of_corrupt b hc')

/-- Settles O38: the pin is asked first. -/
theorem powerOnPinOverridesEverything : Obligations.PowerOnPinOverridesEverything := by
  intro s p rest h hp
  have hr : (Input.cycle p).resets = true := by simp [Input.resets, hp]
  rw [step_of_input h, performInput_of_resets _ hr]
  rfl

/-- Settles O39: an idle cycle, and no input, perform nothing. -/
theorem noRequestChangesNothing : Obligations.NoRequestChangesNothing := by
  intro s
  refine ⟨fun h => step_of_no_input h, fun p rest h hp hv => ?_⟩
  have hr : (Input.cycle p).resets = false := by simp [Input.resets, hp]
  have hi : (Input.cycle p).idle = true := by simp [Input.idle, hv]
  rw [step_of_input h, performInput_of_not_performed hr (.inr hi)]
  rfl

/-- Settles O40: the decoder rejects the code. -/
theorem reservedRequestCodeIsRefused : Obligations.ReservedRequestCodeIsRefused := by
  intro s p rest h hf hp hv hop
  have hr : (Input.cycle p).resets = false := by simp [Input.resets, hp]
  have hi : (Input.cycle p).idle = false := by simp [Input.idle, hv]
  have hh : (s.setInputs rest).halted = false := halted_eq_false_iff.mpr hf
  rw [step_of_input h, performInput_of_decode_error hr hh hi (decodeRequest_of_reserved hop)]
  rfl

/-- Halted or not, a TRANSFER request and its byte on the wire do the same. -/
theorem performInput_transfer_eq_wireByte {p : Ports} (s : State) (hr : (Input.cycle p).resets = false)
    (hi : (Input.cycle p).idle = false) (hop : p.reqOp = 0#4) :
    performInput (.cycle p) s = performInput (.wireByte p.reqByte) s := by
  cases hh : s.halted with
  | true => rw [performInput_of_not_performed hr (.inl hh), performInput_of_not_performed rfl (.inl hh)]
  | false =>
    rw [performInput_of_decode_ok hr hh hi (decodeRequest_of_transfer hop), performInput_of_decode_ok rfl hh rfl rfl,
      exec_transfer_eq_exec_decodeTransfer]

/-- Settles O41: TRANSFER and the row its byte selects are one operation. -/
theorem wireByteIsATransferRequest : Obligations.WireByteIsATransferRequest := by
  intro s p rest hp hv hop
  have hr : (Input.cycle p).resets = false := by simp [Input.resets, hp]
  have hi : (Input.cycle p).idle = false := by simp [Input.idle, hv]
  rw [step_of_input rfl, step_of_input rfl]
  exact performInput_transfer_eq_wireByte (s.setInputs rest) hr hi hop

/-! ### Placed table words -/

/-- A table word is a request cycle or a byte on the wire (log entry 11). -/
theorem ofTableWord_cases {nbits w : Nat} {inp : Input} (h : Input.ofTableWord nbits w = some inp) :
    (∃ op, inp = .cycle (requestPorts op)) ∨ ∃ b, inp = .wireByte b := by
  unfold Input.ofTableWord at h
  split_ifs at h
  · exact .inl ⟨_, (Option.some.inj h).symm⟩
  · exact .inr ⟨_, (Option.some.inj h).symm⟩

/-- What a table word is read as is what its input decodes to in Idle. -/
theorem decodeTableWord_eq_some {nbits w : Nat} {i : Instr} (h : decodeTableWord nbits w = some i) :
    ∃ inp, Input.ofTableWord nbits w = some inp ∧ decode Config.tsIdle inp = .ok i := by
  unfold decodeTableWord at h
  cases hw : Input.ofTableWord nbits w with
  | none => rw [hw] at h; cases h
  | some inp =>
    rw [hw] at h
    change (decode Config.tsIdle inp).toOption = some i at h
    cases hd : decode Config.tsIdle inp with
    | error e => rw [hd] at h; cases h
    | ok j => rw [hd] at h; cases h; exact ⟨inp, rfl, hd⟩

theorem withFetchWord_of_some {nbits w : Nat} {inp : Input} (s : State) (h : Input.ofTableWord nbits w = some inp) :
    s.withFetchWord nbits w = s.withInput inp := by
  rw [State.withFetchWord, placeTableWord, h]

/-- Settles O42: the placed input stands first in a block that is not halted, and decodes to the instruction read. -/
theorem placedTableWordIsPerformedNext : Obligations.PlacedTableWordIsPerformedNext := by
  intro s nbits w i h
  obtain ⟨inp, hword, hd⟩ := decodeTableWord_eq_some h
  rw [withFetchWord_of_some s hword]
  obtain ⟨op, rfl⟩ | ⟨b, rfl⟩ := ofTableWord_cases hword
  · have hd' : decode s.ts (.cycle (requestPorts op)) = .ok i := hd
    refine ⟨{ s with fault := none }, rfl, .inl rfl, rfl, rfl, ?_⟩
    exact (stepPerformsTheDecodedInstruction (s.withInput (.cycle _)) _ s.inputs i rfl rfl rfl rfl hd').1
  · refine ⟨{ s with fault := none, ts := Config.tsIdle }, rfl, .inr rfl, rfl, rfl, ?_⟩
    exact (stepPerformsTheDecodedInstruction (s.withInput (.wireByte b)) _ s.inputs i rfl rfl rfl rfl hd).1

/-! ### The halted block -/

/-- Halted, a step without a power-on reset takes its input and performs nothing (R175). -/
theorem step_of_halted {s : State} (hh : s.halted = true) (hr : ∀ inp ∈ s.inputs.take 1, inp.resets = false) :
    step s = .next (s.setInputs s.inputs.tail).noRequest := by
  cases h : s.inputs with
  | nil =>
    have hs : s.setInputs [] = s := by rw [← h]; rfl
    rw [step_of_no_input h, List.tail_nil, hs]
  | cons inp rest =>
    have hinp : inp.resets = false := hr inp (by simp [h])
    have hh' : (s.setInputs rest).halted = true := hh
    rw [step_of_input h, List.tail_cons, performInput_of_not_performed hinp (.inl hh')]

/-- Settles O43: by induction on the number of steps, each of which leaves the block halted. -/
theorem haltedBlockPerformsNothing : Obligations.HaltedBlockPerformsNothing := by
  intro k
  induction k with
  | zero =>
    intro s _ _
    exact ⟨s, rfl, rfl, rfl, rfl, rfl, fun h => absurd h (lt_irrefl 0)⟩
  | succ n ih =>
    intro s hh hr
    have hfirst : ∀ inp ∈ s.inputs.take 1, inp.resets = false := fun inp hmem =>
      hr inp (List.take_subset_take_left s.inputs (Nat.le_add_left 1 n) hmem)
    have hrest : ∀ inp ∈ s.inputs.tail.take n, inp.resets = false := fun inp hmem => by
      rw [← List.drop_one, List.take_drop] at hmem
      exact hr inp (by rw [Nat.add_comm n 1]; exact List.mem_of_mem_drop hmem)
    obtain ⟨t, hrun, hbtn, hts, hfault, hinputs, hrsp⟩ := ih (s.setInputs s.inputs.tail).noRequest hh hrest
    refine ⟨t, runSteps_succ_eq_next.mpr ⟨_, step_of_halted hh hfirst, hrun⟩, hbtn, hts, hfault, ?_, fun _ => ?_⟩
    · rw [hinputs, noRequest_inputs, setInputs_inputs, List.drop_tail]
    · cases n with
      | zero => cases hrun; rfl
      | succ m => exact hrsp (Nat.succ_pos m)

/-! ### The invariants -/

/-- A selected operation of a legal state that restores no corrupt transfer state completes in a legal state (R26, R33). -/
theorem exec_of_legal {i : Instr} {s : State} (hl : s.Legal) (hsel : i.selectedIn s.ts = true)
    (htrusted : trustedOp i = true) : ∃ t, exec i s = .next t ∧ t.Legal := by
  obtain ⟨t, ht, -⟩ | ⟨-, hc, -⟩ := exec_cases hsel
  · refine ⟨t, ht, ?_⟩
    by_cases hts : t.ts = s.ts
    · rwa [State.Legal, hts]
    · obtain hbus | ⟨img, rfl⟩ := writer_of_ts_ne ht hts
      · cases i with
        | transfer b => rw [exec_transfer_of_legal b hl] at ht; cases ht; exact afterTransfer_legal s b
        | xferIllegal b => cases ht
        | reset | resetTransfer | xferSelect | xferOther | xferBtnMsb => cases ht; exact tsIdle_lt
        | xferPoll => cases ht; exact tsIdMsb_lt
        | xferIdMsb b => cases ht; exact tsButtonsLsb_lt
        | xferBtnLsb b => cases ht; exact tsButtonsMsb_lt
        | _ => cases hbus
      · cases ht
        have himg : (imageTs img).toNat < Config.nStates := by simpa [trustedOp] using htrusted
        exact himg
  · exact absurd hc ((legal_iff_not_corrupt s).mp hl)

/-- A dutiful input that asks for something decodes, to an operation that restores no corrupt transfer state (R205). -/
theorem decode_of_dutiful {inp : Input} (ts : Byte) (h : dutifulInput inp = true) (hr : inp.resets = false)
    (hi : inp.idle = false) : ∃ i, decode ts inp = .ok i ∧ trustedOp i = true := by
  cases inp with
  | cycle p =>
    cases hd : decodeRequest p with
    | ok i => exact ⟨i, hd, by simpa [dutifulInput, hr, hi, hd] using h⟩
    | error e => simp [dutifulInput, hr, hi, hd] at h
  | wireByte b =>
    refine ⟨decodeTransfer ts b, rfl, ?_⟩
    unfold decodeTransfer
    split_ifs <;> rfl
  | query q => exact ⟨decodeQuery q, rfl, by cases q <;> rfl⟩

/-- Settles O44: the input taken resets, asks nothing, or names an operation that completes in a legal state. -/
theorem safeRunsGoOnForEver : Obligations.SafeRunsGoOnForEver := by
  rintro s ⟨⟨hf, hl⟩, hdutiful⟩
  cases h : s.inputs with
  | nil => exact ⟨s.noRequest, step_of_no_input h, ⟨hf, hl⟩, hdutiful⟩
  | cons inp rest =>
    obtain ⟨hinp, hrest⟩ : dutifulInput inp = true ∧ ∀ x ∈ rest, dutifulInput x = true := by simpa [h] using hdutiful
    rw [step_of_input h]
    cases hr : inp.resets with
    | true => exact ⟨_, performInput_of_resets _ hr, ⟨rfl, tsIdle_lt⟩, hrest⟩
    | false =>
      cases hi : inp.idle with
      | true => exact ⟨_, performInput_of_not_performed hr (.inr hi), ⟨hf, hl⟩, hrest⟩
      | false =>
        obtain ⟨i, hd, htrusted⟩ := decode_of_dutiful s.ts hinp hr hi
        have hl' : (s.setInputs rest).Legal := hl
        obtain ⟨t, ht, htl⟩ := exec_of_legal hl' (selectedIn_of_decode hd) htrusted
        obtain ⟨htf, hti⟩ := exec_keepsEnvironment i _ t ht
        have hperform := performInput_of_decode_ok (s := s.setInputs rest) hr (halted_eq_false_iff.mpr hf) hi hd
        refine ⟨t, hperform.trans (latchFault_eq_next.mpr (.inl ht)), ⟨htf.trans hf, htl⟩, ?_⟩
        rwa [hti]

/-- Settles O45: an operation that completes keeps no fault, and a fault raised is that of a transfer in a corrupt state. -/
theorem faultRecordIsKeptByEveryStep : Obligations.FaultRecordIsKeptByEveryStep := by
  intro s t hrecord h
  obtain ⟨-, rfl⟩ | ⟨inp, rest, -, hcase⟩ := step_cases h
  · exact hrecord
  · obtain ⟨-, rfl⟩ | ⟨-, -, rfl⟩ | ⟨-, hh, -, i, hd, ht | ⟨f, hf, rfl⟩⟩ := hcase
    · rintro f ⟨⟩
    · exact hrecord
    · intro f hkept
      rw [(exec_keepsEnvironment i _ t ht).1, setInputs_fault, halted_eq_false_iff.mp hh] at hkept
      cases hkept
    · rintro g ⟨⟩
      have hsel : i.selectedIn (s.setInputs rest).ts = true := selectedIn_of_decode hd
      obtain ⟨hname, hc, -⟩ := ((onlyTransfersInCorruptStatesFault i _ hsel).2 f).mp hf
      exact ⟨hname, hc⟩

/-- Settles O46: no fault is kept, Idle is legal, and nothing is to come. -/
theorem resetStateMeetsTheInvariants : Obligations.ResetStateMeetsTheInvariants :=
  ⟨⟨⟨powerOn_fault _ _, tsIdle_lt⟩, fun _ h => absurd h List.not_mem_nil⟩, fun _ h => nomatch h⟩

end Sys2Proof.Machine
end

section
/-! PROOFS. Runs of operations (R49): what the responses of a run are, runs of transfers, runs of button operations, and what
the two have to do with each other. -/

namespace Sys2Proof.Machine

/-! ### One more operation -/

theorem runOps_cons_of_next {i : Instr} {s t : State} (l : List Instr) (h : exec i s = .next t) :
    runOps (i :: l) s = runOps l t := by
  rw [runOps, h]

theorem responses_cons_of_next {i : Instr} {s t : State} (l : List Instr) (h : exec i s = .next t) :
    responses (i :: l) s = t.rsp :: responses l t := by
  rw [responses, h]

theorem responses_cons_of_fault {i : Instr} {s : State} {f : Fault} (l : List Instr) (h : exec i s = .fault f) :
    responses (i :: l) s = [] := by
  rw [responses, h]

theorem continueTrace_cons_of_next {i : Instr} {s t : State} (l : List Instr) (h : exec i s = .next t) :
    continueTrace (i :: l) s = t.rsp.rspContinue.toList ++ continueTrace l t := by
  rw [continueTrace, responses_cons_of_next l h]
  cases hc : t.rsp.rspContinue <;> simp [hc, continueTrace]

theorem continueTrace_cons_of_fault {i : Instr} {s : State} {f : Fault} (l : List Instr) (h : exec i s = .fault f) :
    continueTrace (i :: l) s = [] := by
  rw [continueTrace, responses_cons_of_fault l h, List.filterMap_nil]

/-! ### Whole polls -/

/-- A poll from Idle passes its four rows one after the other. -/
theorem pollNoSel_of_idle {s : State} (x y z : Byte) (h : s.ts = Config.tsIdle) :
    responses (pollNoSel x y z) s =
      [.transfer 0x41#8 true, .transfer 0x5A#8 true, .transfer (BitVec.extractLsb' 0 8 s.btn) true,
        .transfer (BitVec.extractLsb' 8 8 s.btn) false] ∧
    runOps (pollNoSel x y z) s = .next { s with rsp := .transfer (BitVec.extractLsb' 8 8 s.btn) false } := by
  have hpoll : exec (.transfer Config.cmdPoll) s = _ := (pollCommandInIdleAnswersIdentityLowByte s h).2
  have hid := (idMsbAnswersIdentityHighByte { s with ts := Config.tsIdMsb, rsp := .transfer 0x41#8 true } x rfl).2
  have hlow := (buttonsLsbAnswersRawLowByte { s with ts := Config.tsButtonsLsb, rsp := .transfer 0x5A#8 true } y rfl).2
  have hhigh := (buttonsMsbAnswersRawHighByteAndReturnsToIdle
    { s with ts := Config.tsButtonsMsb, rsp := .transfer (BitVec.extractLsb' 0 8 s.btn) true } z rfl).2
  constructor
  · rw [pollNoSel, responses_cons_of_next _ hpoll, responses_cons_of_next _ hid, responses_cons_of_next _ hlow,
      responses_cons_of_next _ hhigh, responses]
  · rw [pollNoSel, runOps_cons_of_next _ hpoll, runOps_cons_of_next _ hid, runOps_cons_of_next _ hlow,
      runOps_cons_of_next _ hhigh, runOps_nil, h]

/-- Settles O28: the six rows a poll passes, one after the other. -/
theorem wholePollAnswersIdentityAndMask : Obligations.WholePollAnswersIdentityAndMask := by
  intro s x y z h
  have hmask : 256 * (BitVec.extractLsb' 8 8 s.btn).toNat + (BitVec.extractLsb' 0 8 s.btn).toNat = s.btn.toNat := by
    rw [← hi8_eq_extractLsb', ← lo8_eq_extractLsb', hi8_lo8_toNat]
  have hselect := (selectByteInIdleIsAcknowledgedOnly s h).2
  have hnosel := pollNoSel_of_idle x y z h
  have hnosel' := pollNoSel_of_idle (s := { s with rsp := .transfer 0xFF#8 true }) x y z h
  refine ⟨_, _, hmask, ?_, hnosel.1, ?_, hnosel.2⟩
  · exact (responses_cons_of_next _ hselect).trans (congrArg (_ :: ·) hnosel'.1)
  · exact (runOps_cons_of_next _ hselect).trans hnosel'.2

/-! ### Runs of transfers -/

/-- From a legal state every list of bytes is answered, and leaves `btn` alone (R33). -/
theorem runOps_transfers {s : State} (bytes : List Byte) (h : s.Legal) :
    ∃ t, runOps (bytes.map .transfer) s = .next t ∧ t.Legal ∧ t.btn = s.btn := by
  induction bytes generalizing s with
  | nil => exact ⟨s, runOps_nil s, h, rfl⟩
  | cons b rest ih =>
    obtain ⟨t, ht, hlegal, hbtn⟩ := ih (afterTransfer_legal s b)
    exact ⟨t, (runOps_cons_of_next _ (exec_transfer_of_legal b h)).trans ht, hlegal, hbtn⟩

/-- The responses of a list of bytes are a function of `btn` and `ts` (R30). -/
theorem responses_transfers_congr {s s' : State} (bytes : List Byte) (h : s.Legal) (hts : s.ts = s'.ts)
    (hbtn : s.btn = s'.btn) : responses (bytes.map .transfer) s = responses (bytes.map .transfer) s' := by
  induction bytes generalizing s s' with
  | nil => rfl
  | cons b rest ih =>
    have h' : s'.Legal := by rwa [State.Legal, ← hts]
    have hnext : (s.afterTransfer b).ts = (s'.afterTransfer b).ts := by simp only [afterTransfer_ts, hts]
    rw [List.map_cons, responses_cons_of_next _ (exec_transfer_of_legal b h),
      responses_cons_of_next _ (exec_transfer_of_legal b h'), ih (afterTransfer_legal s b) hnext hbtn]
    simp only [afterTransfer_rsp, hts, hbtn]

theorem responses_transfer_of_legal {s : State} (b : Byte) (h : s.Legal) :
    responses [.transfer b] s = [.transfer (serializer s.ts b s.btn) (continueFlag s.ts b)] :=
  responses_cons_of_next [] (exec_transfer_of_legal b h)

/-- Outside Idle the transfer states are passed in the order of their numbers, and Idle comes last (R66, R69). -/
theorem nextTs_toNat {ts : Byte} (b : Byte) (hlegal : ts.toNat < Config.nStates) (hidle : ts ≠ Config.tsIdle) :
    (nextTs ts b).toNat = (ts.toNat + 1) % 4 := by
  obtain rfl | rfl | rfl | rfl := legal_ts_cases hlegal
  · exact absurd rfl hidle
  all_goals rfl

/-- Settles O29: by induction on the bytes; a row that ends in Idle is the last one. -/
theorem abandonedPollUsesUpItsRows : Obligations.AbandonedPollUsesUpItsRows := by
  intro s bytes hlegal hidle hlen
  induction bytes generalizing s with
  | nil => exact ⟨s, runOps_nil s, rfl, (Nat.mod_eq_of_lt hlegal).symm⟩
  | cons b rest ih =>
    have hnext : (s.afterTransfer b).ts.toNat = (s.ts.toNat + 1) % 4 := nextTs_toNat b hlegal hidle
    rw [List.map_cons, runOps_cons_of_next _ (exec_transfer_of_legal b hlegal)]
    rw [List.length_cons] at hlen ⊢
    cases rest with
    | nil => exact ⟨_, runOps_nil _, rfl, hnext⟩
    | cons c rest =>
      rw [List.length_cons] at hlen ih ⊢
      have hnotIdle : (s.afterTransfer b).ts ≠ Config.tsIdle := fun h => by
        have hzero : (s.afterTransfer b).ts.toNat = 0 := congrArg BitVec.toNat h
        omega
      obtain ⟨t, ht, hbtn, hts⟩ := ih (s.afterTransfer b) (afterTransfer_legal s b) hnotIdle (by omega)
      exact ⟨t, ht, hbtn, by omega⟩

/-! ### Runs of button operations -/

/-- Operations of the input source complete and leave `ts` alone (R6). -/
theorem runOps_inputSource {ops : List Instr} (h : ∀ i ∈ ops, agentOf i = .inputSource) (s : State) :
    ∃ t, runOps ops s = .next t ∧ t.ts = s.ts := by
  induction ops generalizing s with
  | nil => exact ⟨s, runOps_nil s, rfl⟩
  | cons i rest ih =>
    obtain ⟨hi, hrest⟩ := List.forall_mem_cons.mp h
    obtain ⟨u, hu, huts, -⟩ := exec_inputSource hi s
    obtain ⟨t, ht, htts⟩ := ih hrest u
    exact ⟨t, (runOps_cons_of_next rest hu).trans ht, htts.trans huts⟩

/-- Settles O30: the button operations leave ButtonsMSB, where `btn` is read anew. -/
theorem buttonBytesAreLiveReads : Obligations.ButtonBytesAreLiveReads := by
  intro s x y ops hts hops
  have hlow := (buttonsLsbAnswersRawLowByte s x hts).2
  obtain ⟨m, hm, hmts⟩ := runOps_inputSource hops { s with ts := _, rsp := _ }
  have hhigh := (buttonsMsbAnswersRawHighByteAndReturnsToIdle m y hmts).2
  exact ⟨m, (runOps_cons_of_next ops hlow).trans hm, responses_cons_of_next [] hlow, responses_cons_of_next [] hhigh⟩

/-- Settles O32: by induction on the operations. One that stays in frames both runs alike; one that is taken out completes,
keeps `ts` and gives no flag. -/
theorem buttonHistoryNeverChangesTheFraming : Obligations.ButtonHistoryNeverChangesTheFraming := by
  intro ops
  induction ops with
  | nil =>
    intro s s' h
    refine ⟨rfl, fun t ht => ⟨s', runOps_nil s', ?_⟩⟩
    cases ht
    exact h.symm
  | cons i rest ih =>
    intro s s' h
    by_cases hi : agentOf i = .inputSource
    case pos =>
      obtain ⟨t, ht, hts, hcont⟩ := exec_inputSource hi s
      rw [List.filter_cons_of_neg (by simp [hi]), runOps_cons_of_next rest ht, continueTrace_cons_of_next rest ht, hcont]
      exact ih t s' (hts.trans h)
    case neg =>
      rw [List.filter_cons_of_pos (by simp [hi])]
      obtain ⟨t, t', ht, ht', hts, hcont⟩ | ⟨f, f', hf, hf'⟩ := exec_sameFraming i h
      · rw [runOps_cons_of_next _ ht, runOps_cons_of_next _ ht', continueTrace_cons_of_next _ ht,
          continueTrace_cons_of_next _ ht', hcont]
        obtain ⟨htrace, hrun⟩ := ih t t' hts.symm
        exact ⟨congrArg _ htrace, hrun⟩
      · rw [continueTrace_cons_of_fault _ hf, continueTrace_cons_of_fault _ hf', runOps, hf]
        exact ⟨rfl, fun t ht => by cases ht⟩

/-! ### After RESET -/

/-- No transfer is a button operation, so that taking these out takes out nothing. -/
theorem filter_transfers (bytes : List Byte) :
    (bytes.map Instr.transfer).filter (fun i => decide (agentOf i ≠ .inputSource)) = bytes.map .transfer := by
  rw [List.filter_eq_self]
  intro i hi
  obtain ⟨b, -, rfl⟩ := List.mem_map.mp hi
  rfl

/-- Two states of one legal transfer state answer the next byte alike exactly when the part of `btn` it reads is equal. -/
theorem responses_transfer_eq_iff {u v : State} (x : Byte) (hu : u.Legal) (hts : u.ts = v.ts) :
    responses [.transfer x] u = responses [.transfer x] v ↔ serializer u.ts x u.btn = serializer u.ts x v.btn := by
  have hv : v.Legal := by rwa [State.Legal, ← hts]
  rw [responses_transfer_of_legal x hu, responses_transfer_of_legal x hv, ← hts]
  simp

theorem serializer_buttonsLsb (x : Byte) (w : Half) :
    serializer Config.tsButtonsLsb x w = BitVec.extractLsb' 0 8 w := by
  rw [← lo8_eq_extractLsb']; rfl

theorem serializer_buttonsMsb (x : Byte) (w : Half) :
    serializer Config.tsButtonsMsb x w = BitVec.extractLsb' 8 8 w := by
  rw [← hi8_eq_extractLsb']; rfl

/-- Settles O33: both runs start in Idle, so their framing is one, and each keeps its mask. -/
theorem resetActsLikeAFreshBlock : Obligations.ResetActsLikeAFreshBlock := by
  intro s b bytes
  have hlegal : State.Legal { s with ts := Config.tsIdle, rsp := .absent } := tsIdle_lt
  obtain ⟨u, hu, hulegal, hubtn⟩ := runOps_transfers bytes hlegal
  obtain ⟨v, hv, -, hvbtn⟩ := runOps_transfers (s := State.powerOn b []) bytes tsIdle_lt
  obtain ⟨htrace, hrun⟩ := buttonHistoryNeverChangesTheFraming (bytes.map .transfer)
    { s with ts := Config.tsIdle, rsp := .absent } (State.powerOn b []) rfl
  rw [filter_transfers] at htrace hrun
  obtain ⟨v', hv', hts⟩ := hrun u hu
  obtain rfl : v = v' := by
    rw [hv] at hv'
    exact Host.Outcome.next.inj hv'
  have hnext (x : Byte) : responses [.transfer x] u = responses [.transfer x] v ↔
      serializer u.ts x s.btn = serializer u.ts x b := by
    rw [responses_transfer_eq_iff x hulegal hts.symm, hubtn, hvbtn, powerOn_btn]
  refine ⟨_, u, v, exec_reset s, hu, hv, hts.symm, htrace,
    fun x => ⟨fun hlsb hmsb => ?_, fun hlsb => ?_, fun hmsb => ?_⟩,
    fun hb => responses_transfers_congr bytes hlegal rfl hb⟩
  · exact (hnext x).mpr (serializer_eq_of_not_button_row x s.btn b hlsb hmsb hulegal)
  · rw [hnext, hlsb, serializer_buttonsLsb, serializer_buttonsLsb]
  · rw [hnext, hmsb, serializer_buttonsMsb, serializer_buttonsMsb]

/-! ### Reaching every legal state -/

theorem mem_buttonList (b : Button) : b ∈ buttonList := by cases b <;> decide

/-- The settings of the buttons of `l` that give their bits the values of `m`. -/
def settingsFor (m : Half) (l : List Button) : List (Button × Bool) := l.map fun b => (b, !m.getLsbD b.code.toNat)

/-- A run of settings completes, leaves `ts` alone, and makes `btn` agree with `m` at the bits that it sets and at those
that agreed before. -/
theorem runOps_settingsFor (m : Half) (l : List Button) (s : State) :
    ∃ t, runOps ((settingsFor m l).map fun x => .setButton x.1 x.2) s = .next t ∧ t.ts = s.ts ∧
      ∀ j < 16, (s.btn.getLsbD j = m.getLsbD j ∨ ∃ b ∈ l, b.code.toNat = j) → t.btn.getLsbD j = m.getLsbD j := by
  induction l generalizing s with
  | nil =>
    refine ⟨s, runOps_nil s, rfl, fun j _ h => ?_⟩
    simpa using h
  | cons b rest ih =>
    have hset := exec_setButton b (!m.getLsbD b.code.toNat) s
    obtain ⟨t, ht, hts, hbits⟩ := ih { s with btn := _, rsp := .absent }
    refine ⟨t, (runOps_cons_of_next _ hset).trans ht, hts, fun j hj h => hbits j hj ?_⟩
    rw [writeButtonBit_getLsbD _ _ _ _ hj]
    rcases eq_or_ne j b.code.toNat with rfl | hne
    · exact .inl (by simp)
    · simpa [hne, hne.symm] using h

/-- Every mask is reached by sixteen settings, one for each button (R21). -/
theorem runOps_all_settings (m : Half) (s : State) :
    ∃ t, runOps ((settingsFor m buttonList).map fun x => .setButton x.1 x.2) s = .next t ∧ t.ts = s.ts ∧ t.btn = m := by
  obtain ⟨t, ht, hts, hbits⟩ := runOps_settingsFor m buttonList s
  refine ⟨t, ht, hts, BitVec.eq_of_getLsbD_eq fun j hj => hbits j hj (.inr ?_)⟩
  exact ⟨Button.ofCode (BitVec.ofNat 4 j), mem_buttonList _, by
    rw [code_ofCode, BitVec.toNat_ofNat, Nat.mod_eq_of_lt hj]⟩

/-- From Idle the state of number `k` is reached by `k` transfers, the poll command first (R66). -/
theorem runOps_poll_to (s : State) (h : s.ts = Config.tsIdle) (k : Nat) (hk : k < 4) :
    ∃ (bytes : List Byte) (t : State), bytes.length ≤ 3 ∧ (bytes ≠ [] → bytes.head? = some 0x42#8) ∧
      runOps (bytes.map .transfer) s = .next t ∧ t.btn = s.btn ∧ t.ts.toNat = k := by
  cases k with
  | zero => exact ⟨[], s, Nat.zero_le 3, fun hne => absurd rfl hne, runOps_nil s, rfl, by rw [h]; rfl⟩
  | succ n =>
    have hpoll := (pollCommandInIdleAnswersIdentityLowByte s h).2
    obtain ⟨t, ht, hbtn, hts⟩ := abandonedPollUsesUpItsRows
      { s with ts := Config.tsIdMsb, rsp := .transfer 0x41#8 true } (List.replicate n 0#8) tsIdMsb_lt (by simp; decide)
      (by rw [List.length_replicate]; show 1 + n ≤ 4; omega)
    refine ⟨0x42#8 :: List.replicate n 0#8, t, ?_, fun _ => rfl, (runOps_cons_of_next _ hpoll).trans ht, hbtn, ?_⟩
    · rw [List.length_cons, List.length_replicate]; omega
    · rw [hts, List.length_replicate]
      show (1 + n) % 4 = n + 1
      omega

/-- Settles O34: sixteen settings for the mask, then the transfers for the transfer state. -/
theorem everyLegalStateIsReachable : Obligations.EveryLegalStateIsReachable := by
  intro m k hk
  obtain ⟨u, hu, huts, hubtn⟩ := runOps_all_settings m State.reset
  obtain ⟨bytes, t, hlen, hhead, ht, htbtn, hts⟩ := runOps_poll_to u huts k hk
  exact ⟨settingsFor m buttonList, bytes, t, Nat.le_refl 16, hlen, hhead, runOps_append_eq_next.mpr ⟨u, hu, ht⟩,
    htbtn.trans hubtn, hts⟩

end Sys2Proof.Machine
end
